-- ==== Sys2Proof/Word.lean ====
section
/-!
DEFINITION. The words of the block: bytes, port numbers, 32-bit operands and the 128-bit request (R22, R60, R81).
-/

namespace Sys2Proof

/-- One byte: the width of every port access (R68, R70). -/
abbrev Byte := BitVec 8

/-- An I/O port number (R60). -/
abbrev Port := BitVec 16

/-- A 32-bit operand or response word (R21, R86). -/
abbrev Word32 := BitVec 32

/-- The 128-bit request word (R80, R81). -/
abbrev Request := BitVec 128

/-- Seven bytes: `res[0..6]` (R40) and `RB[0..6]` (R86). -/
abbrev Bytes7 := Vector Byte 7

end Sys2Proof
end

