-- ==== Sys2Proof/Config.lean ====
section
/-!
DEFINITION. The implementation parameters R6 to R20 of 00_scope.md, each under its own name, and the free values:
an `opaque` constant is a value the spec leaves OPEN, so a claim holds whatever it is.
-/

namespace Sys2Proof.Config

/-- R6: how many Ticks a handshake poll may spend. -/
def pollLimit : Nat := 500

/-- R7: the real duration of one Tick in milliseconds. No rule reads it. -/
def quantumMs : Nat := 10

/-- R8: the timeout that `irq.wait` without an operand expands to (R121). -/
def waitDefault : BitVec 16 := 500

/-- R9 (OPEN): the byte given in place of data when a read handshake times out. Free value, log entry 10. -/
opaque readSentinel : Byte

/-- R10: sectors per track. The spec's default of the parameter (log entry 11). -/
def spt : Nat := 18

/-- R10: heads, fixed. -/
def heads : Nat := 2

/-- R11: cylinders of the standard geometry. No rule checks an operand against it. -/
def cylinders : Nat := 80

/-- R11: addressable blocks of the standard geometry. -/
def totalBlocks : Nat := heads * spt * cylinders

/-- R12: bytes in a sector. -/
def sectorBytes : Nat := 512

/-- R12: the bytes-per-sector code. -/
def nCode : Byte := 2

/-- R13: the gap length sent in READ DATA and WRITE DATA. -/
def gpl : Byte := 0x1B

/-- R13: the data length sent in READ DATA and WRITE DATA. -/
def dtl : Byte := 0xFF

/-- R13: EOT = SPT, as the byte sent (`SPT[7:0]`, R188). -/
def eot : Byte := BitVec.ofNat 8 spt

/-- R14: the base of the FDC's ports. -/
def fdcBase : Port := 0x3F0

/-- R15: the DMA channel the block programs. -/
def dmaChannel : BitVec 2 := 2

/-- R16: the byte written to the flip-flop reset port. -/
def dmaFfValue : Byte := 0xFF

/-- R17: the least size of the host's DMA buffer. The block does not check it. -/
def dmaBufferMin : Nat := 18432

/-- R18: the number of drives. A drive operand is 2 bits wide. -/
def drives : Nat := 4

/-- R19 (OPEN): the CONFIGURE values a host passes to SEQ_CONFIGURE. Free values, log entry 22. -/
opaque cfgEis : BitVec 1
/-- R19 (OPEN), see `cfgEis`. -/
opaque cfgEfifo : BitVec 1
/-- R19 (OPEN), see `cfgEis`. -/
opaque cfgPoll : BitVec 1
/-- R19 (OPEN), see `cfgEis`. -/
opaque cfgFifothr : BitVec 4
/-- R19 (OPEN), see `cfgEis`. -/
opaque cfgPretrk : Byte

/-- R20: the interrupt latch after RESET. The spec's default of the parameter (log entry 12). -/
def irqFlagAtReset : Bool := false

/-- R24, D9: the oracle's answer to the n-th port read, for reads beyond `State.oracle`. Free value, log entry 4. -/
opaque oracleByte : Nat → Byte

end Sys2Proof.Config
end

