-- ==== Sys2Proof/Machine/State.lean ====
section
/-!
DEFINITION. The state of the block as plain data (10_state.md), the records it deals in, its state after reset, and the
reasons a step can stop.
-/

namespace Sys2Proof.Machine

/-- S.phase (R36). -/
inductive Phase where
  | idle
  | busy
  | faulted
  deriving DecidableEq, Repr

/-- S.fault and the reason of a `Fault` event (R38, R282). -/
inductive FaultReason where
  | none
  | dmaAddress
  | dmaCount
  | dmaBoundary
  deriving DecidableEq, Repr

/-- The code of a fault reason (R282). -/
def FaultReason.code : FaultReason → Nat
  | .none => 0
  | .dmaAddress => 1
  | .dmaCount => 2
  | .dmaBoundary => 3

/-- The status of a response (R87). -/
inductive Status where
  | ok
  | timeout
  | noController
  | invalidChs
  | illegalRequest
  deriving DecidableEq, Repr

/-- The STATUS code (R87). -/
def Status.code : Status → Byte
  | .ok => 0x00
  | .timeout => 0x01
  | .noController => 0x02
  | .invalidChs => 0x03
  | .illegalRequest => 0x04

/-- The response record (R86). -/
structure Response where
  status : Status
  rb : Bytes7
  rw0 : Word32
  rw1 : Word32
  opcode : Byte
  deriving DecidableEq, Repr

/-- The kinds of `Log` event: one (R286). -/
inductive LogKind where
  | writeTimeout
  deriving DecidableEq, Repr

/-- The recorded events, the observation of a run (R25). -/
inductive Event where
  | ioRd (p : Port) (v : Byte)
  | ioWr (p : Port) (v : Byte)
  | tick
  | log (kind : LogKind) (b : Byte)
  | irqLatched
  | irqCoalesced
  | resp (r : Response)
  | fault (reason : FaultReason)
  | reset
  deriving DecidableEq, Repr

/-- Where a handshake stands: before its next MSR read, before its next Tick, or before its FIFO access (R150 to
R152). -/
inductive Handshake where
  | poll
  | tick
  | access
  deriving DecidableEq, Repr

/-- The sequencing position (R35): the statement the next SEQ step carries out. -/
inductive Pos where
  /-- the operation's first statement; the step that carries it out also decodes (R33) -/
  | first
  /-- IRQ_WAIT's check, after at least one Tick (R132) -/
  | check
  /-- IRQ_WAIT's Tick (R132) -/
  | waitTick
  /-- in the HS_WRITE of CC_WRITE_BYTE (R155) -/
  | put (h : Handshake)
  /-- in the HS_WRITE of `cmd[i]` in SEND (R180) -/
  | send (h : Handshake)
  /-- in the HS_READ of `res[i]` in READN (R181) -/
  | recv (h : Handshake)
  /-- at the i-th port write of DMA_PROGRAM (R242) -/
  | dma
  deriving DecidableEq, Repr

/-- Channel 2 of the external DMA controller, as its port writes leave it (R44, R244). The block writes it and never
reads it (R61). -/
structure Dmac where
  baseAddr : BitVec 16
  curAddr : BitVec 16
  page : Byte
  baseCount : BitVec 16
  curCount : BitVec 16
  mode : Byte
  masked : Bool
  /-- the byte-pointer flip-flop: true when the next byte of a pair is the high one -/
  flipFlop : Bool
  deriving DecidableEq, Repr

/-- Which agent takes the next step (R30). HOST and SEQ are never both enabled (R31, R32), so one turn serves both. -/
inductive Turn where
  | block
  | irq
  | reset
  deriving DecidableEq, Repr

/-- The state. The fields up to `events` are the block's own; `dmac` is the external DMA channel; the last four stand
for the world outside and are the model's (log entries 1, 3 and 4). -/
structure State where
  /-- S.phase (R36) -/
  phase : Phase
  /-- S.irq_flag (R37) -/
  irqFlag : Bool
  /-- S.fault (R38) -/
  fault : FaultReason
  /-- S.op (R39): no value while the phase is not BUSY -/
  op : Option Request
  /-- the sequencing position (R35) -/
  pos : Pos
  /-- the handshake poll counter (R40) -/
  polls : Nat
  /-- the IRQ_WAIT budget (R40) -/
  remaining : BitVec 16
  /-- the byte index (R40) -/
  i : Nat
  /-- `cmd[0..8]`, the command bytes being sent (R40) -/
  cmd : List Byte
  /-- `res[0..6]`, the result bytes being read (R40) -/
  res : Bytes7
  /-- the event history, oldest first (R25, R49) -/
  events : List Event
  /-- channel 2 of the DMA controller (R44) -/
  dmac : Dmac
  /-- the oracle's answers to the next port reads (R24, D9) -/
  oracle : List Byte
  /-- how many port reads have been made -/
  reads : Nat
  /-- whose turns come next; when it is empty the turn is the block's -/
  schedule : List Turn
  /-- the request words HOST will issue, oldest first (R32) -/
  requests : List Request
  deriving DecidableEq, Repr

/-- Why the machine stops. Each is a state in which the spec gives no agent a step, so stopping is safe. -/
inductive Fault where
  /-- raised by `hostTurn`: the phase is IDLE and HOST has no request to issue (R32). Safe. -/
  | awaitingRequest
  /-- raised by `step`: the phase is FAULTED and neither IRQ nor RESET has the turn (R281, R298: a stuck state). Safe. -/
  | awaitingReset
  /-- raised by `step`: the phase is BUSY and no operation is held, or SEND holds no command phase the block sends. No
  run reaches such a state (log entry 17). Safe. -/
  | lostSequence
  deriving DecidableEq, Repr

/-- Why an instruction has no meaning. -/
inductive Refusal where
  /-- raised by an arm of `exec` for an instruction not modelled yet. Safe. -/
  | notModelled (mnemonic : String)
  deriving DecidableEq, Repr

/-- Channel 2 at power-on (log entry 14). -/
def Dmac.powerOn : Dmac where
  baseAddr := 0
  curAddr := 0
  page := 0
  baseCount := 0
  curCount := 0
  mode := 0
  masked := true
  flipFlop := false

/-- The state at power-on, which is what RESET leaves with no event recorded (R45 to R48, R311, R312). -/
def State.reset : State where
  phase := .idle
  irqFlag := Config.irqFlagAtReset
  fault := .none
  op := none
  pos := .first
  polls := 0
  remaining := 0
  i := 0
  cmd := []
  res := Vector.replicate 7 0
  events := []
  dmac := Dmac.powerOn
  oracle := []
  reads := 0
  schedule := []
  requests := []

end Sys2Proof.Machine
end

