-- ==== Sys2Proof/Machine/Flags.lean ====
section
/-!
DEFINITION. The flags: the two MSR bits a handshake compares (R42, R150), and the status bits of ST0, ST1 and ST2
(R103 to R106). The block has no condition codes (R41); its one held flag is `State.irqFlag`.
-/

namespace Sys2Proof.Machine

/-- The MSR pattern a handshake waits for (R150). -/
inductive Ready where
  | forWrite
  | forRead
  deriving DecidableEq, Repr

/-- R150: `want`, the pattern of RQM and DIO. -/
def Ready.pattern : Ready → BitVec 2
  | .forWrite => 0b10
  | .forRead => 0b11

/-- R42, R150: `m[7:6]`, the RQM and DIO bits of an MSR answer. -/
def msrBits (m : Byte) : BitVec 2 := m.extractLsb' 6 2

/-- R150: whether an MSR answer shows the pattern. No other bit is examined. -/
def msrReady (want : Ready) (m : Byte) : Bool := msrBits m == want.pattern

/-- R103: the interrupt-code field IC of ST0. -/
def st0Ic (st0 : Byte) : BitVec 2 := st0.extractLsb' 6 2

/-- R104: ST0 NR, drive not ready. -/
def st0NotReady (st0 : Byte) : Bool := st0.getLsbD 3

/-- R105: ST1 MA, missing address mark. -/
def st1MissingAddressMark (st1 : Byte) : Bool := st1.getLsbD 0
/-- R105: ST1 NW, not writable. -/
def st1NotWritable (st1 : Byte) : Bool := st1.getLsbD 1
/-- R105: ST1 ND, no data. -/
def st1NoData (st1 : Byte) : Bool := st1.getLsbD 2
/-- R105: ST1 OR, overrun or underrun. -/
def st1Overrun (st1 : Byte) : Bool := st1.getLsbD 4
/-- R105: ST1 DE, data error. -/
def st1DataError (st1 : Byte) : Bool := st1.getLsbD 5
/-- R105: ST1 EN, end of cylinder. -/
def st1EndOfCylinder (st1 : Byte) : Bool := st1.getLsbD 7

/-- R106: ST2 MD, missing data mark. -/
def st2MissingDataMark (st2 : Byte) : Bool := st2.getLsbD 0
/-- R106: ST2 BC, bad cylinder. -/
def st2BadCylinder (st2 : Byte) : Bool := st2.getLsbD 1
/-- R106: ST2 WC, wrong cylinder. -/
def st2WrongCylinder (st2 : Byte) : Bool := st2.getLsbD 4
/-- R106: ST2 DD, data error in field. -/
def st2DataErrorInField (st2 : Byte) : Bool := st2.getLsbD 5
/-- R106: ST2 CM, control mark. -/
def st2ControlMark (st2 : Byte) : Bool := st2.getLsbD 6

end Sys2Proof.Machine
end

