-- ==== Sys2Proof/Syntax.lean ====
section
/-!
DEFINITION. The instructions, one constructor per row of spec/opcode_table.json, with their operands typed at the
widths of R21 and R83, and the lines of the assembly notation of R120 and R121.
-/

namespace Sys2Proof

/-- The direction of a DMA transfer (R240): `read` is FDC to memory, `write` is memory to FDC. -/
inductive Direction where
  | read
  | write
  deriving DecidableEq, Repr

/-- The two row formats of the opcode table: a request word (R81) and an FDC command phase (R90, R101). -/
inductive Format where
  | req128
  | fdcCmd8
  deriving DecidableEq, Repr

/-- The rows of the opcode table. The first sixteen are requests (R82, R83); the last eight are the FDC command
phases the block sends (R90, R93, R94), their operands the bytes after the first, in order. -/
inductive Instr where
  | irqWait (t : BitVec 16)
  | ccWriteByte (b : Byte)
  | ccReadByte
  | ccSenseInterrupt
  | seqSeek (drive : BitVec 2) (head : BitVec 1) (cyl : Byte)
  | seqRecalibrate (drive : BitVec 2)
  | seqReadData (drive : BitVec 2) (head : BitVec 1) (cyl sec : Byte)
  | seqWriteData (drive : BitVec 2) (head : BitVec 1) (cyl sec : Byte)
  | seqVersion
  | seqConfigure (eis efifo poll : BitVec 1) (thr : BitVec 4) (pretrk : Byte)
  | seqLock
  | seqReadResult (n : Byte)
  | geoLbaToChs (lba : Word32)
  | geoChsToLba (cyl : Word32) (head sec : Byte)
  | dmaProgram (addr count : Word32) (dir : Direction)
  | classify (st0 st1 st2 : Byte)
  | fdcReadData (dh c h r n eot gpl dtl : Byte)
  | fdcWriteData (dh c h r n eot gpl dtl : Byte)
  | fdcSeek (dh ncn : Byte)
  | fdcRecalibrate (dh : Byte)
  | fdcSenseInterrupt
  | fdcVersion
  | fdcConfigure (zero cfg pretrk : Byte)
  | fdcLock
  deriving DecidableEq, Repr

/-- The format of a row. -/
def Instr.format : Instr → Format
  | .irqWait _ | .ccWriteByte _ | .ccReadByte | .ccSenseInterrupt | .seqSeek _ _ _ | .seqRecalibrate _
  | .seqReadData _ _ _ _ | .seqWriteData _ _ _ _ | .seqVersion | .seqConfigure _ _ _ _ _ | .seqLock
  | .seqReadResult _ | .geoLbaToChs _ | .geoChsToLba _ _ _ | .dmaProgram _ _ _ | .classify _ _ _ => .req128
  | .fdcReadData _ _ _ _ _ _ _ _ | .fdcWriteData _ _ _ _ _ _ _ _ | .fdcSeek _ _ | .fdcRecalibrate _
  | .fdcSenseInterrupt | .fdcVersion | .fdcConfigure _ _ _ | .fdcLock => .fdcCmd8

/-- One line of a host program in the notation of R120, with the pseudo-instructions of R121. -/
inductive AsmLine where
  | irqWait (t : Nat)
  | irqWaitDefault
  | irqPoll
  | ccWrite (b : Nat)
  | ccRead
  | ccSense
  | ccDrain4
  | seqSeek (d h c : Nat)
  | seqRecal (d : Nat)
  | seqRead (d h c s : Nat)
  | seqWrite (d h c s : Nat)
  | seqVersion
  | seqConfig (eis efifo poll thr pretrk : Nat)
  | seqLock
  | seqResult (n : Nat)
  | geoChs (lba : Nat)
  | geoLba (c h s : Nat)
  | dmaProg (addr count : Nat) (dir : Direction)
  | dmaRead (addr count : Nat)
  | dmaWrite (addr count : Nat)
  | classify (st0 st1 st2 : Nat)
  deriving DecidableEq, Repr

end Sys2Proof
end

