-- ==== Sys2Proof/WellFormed.lean ====
section
/-!
DEFINITION. Which instructions the encoding rules admit: the count of SEQ_READ_RESULT (R85 (c)) and the byte values of
the FDC command phases the block sends (R92 to R95). Every other operand is held in its field's exact width.
-/

namespace Sys2Proof

/-- A byte of the form `DH(drive, head)`: bits 7:3 are 0 (R92). -/
def driveHeadOk (dh : Byte) : Bool := dh.extractLsb' 3 5 = 0

/-- The nine-byte phases of R93, after the first byte: H repeats the head bit of DH, and N, EOT, GPL, DTL are the
fixed parameters of R12 and R13. -/
def dataPhaseOk (dh h n eot gpl dtl : Byte) : Bool :=
  driveHeadOk dh && h == (dh.extractLsb' 2 1).setWidth 8 && n == Config.nCode && eot == Config.eot
    && gpl == Config.gpl && dtl == Config.dtl

/-- The operand checks of the encoding rules. -/
def Instr.wellFormed : Instr → Bool
  | .irqWait _ => true
  | .ccWriteByte _ => true
  | .ccReadByte => true
  | .ccSenseInterrupt => true
  | .seqSeek _ _ _ => true
  | .seqRecalibrate _ => true
  | .seqReadData _ _ _ _ => true
  | .seqWriteData _ _ _ _ => true
  | .seqVersion => true
  | .seqConfigure _ _ _ _ _ => true
  | .seqLock => true
  | .seqReadResult n => 1 ≤ n.toNat && n.toNat ≤ 7
  | .geoLbaToChs _ => true
  | .geoChsToLba _ _ _ => true
  | .dmaProgram _ _ _ => true
  | .classify _ _ _ => true
  | .fdcReadData dh _ h _ n eot gpl dtl => dataPhaseOk dh h n eot gpl dtl
  | .fdcWriteData dh _ h _ n eot gpl dtl => dataPhaseOk dh h n eot gpl dtl
  | .fdcSeek dh _ => driveHeadOk dh
  | .fdcRecalibrate dh => driveHeadOk dh && dh.extractLsb' 2 1 == 0
  | .fdcSenseInterrupt => true
  | .fdcVersion => true
  | .fdcConfigure zero cfg _ => zero == 0 && cfg.extractLsb' 7 1 == 0
  | .fdcLock => true

end Sys2Proof
end

