-- ==== Sys2Proof/Decode.lean ====
section
/-!
DEFINITION. The decoder (total, rejecting by name), the encoder beside it, and the assembler of R120 and R121.
A request word is decoded by R81 to R85; an FDC command phase by its first byte, which fixes its length (R90, R101).
-/

namespace Sys2Proof

/-! ## Bytes and words -/

/-- The value of a little-endian byte list (R84). -/
def leNat : List Byte → Nat
  | [] => 0
  | b :: bs => b.toNat + 256 * leNat bs

/-- The k low bytes of a number, least significant first (R84). -/
def leBytes : Nat → Nat → List Byte
  | 0, _ => []
  | k + 1, n => BitVec.ofNat 8 n :: leBytes k (n / 256)

/-- R84: the sixteen bytes of a request word; byte k holds `q[8k+7:8k]`. -/
def requestBytes (q : Request) : List Byte := leBytes 16 q.toNat

/-- R84: the request word of its sixteen bytes, with what follows them. -/
def requestOfBytes (bytes : List Byte) : Option (Request × List Byte) :=
  if 16 ≤ bytes.length then some (BitVec.ofNat 128 (leNat (bytes.take 16)), bytes.drop 16) else none

/-! ## The request word -/

/-- The fields of a request word (R81). -/
structure Fields where
  op : Byte
  f : Byte
  g : BitVec 16
  a : Word32
  b : Word32
  z : Word32
  deriving DecidableEq, Repr

/-- R81: the fields of q. -/
def fieldsOf (q : Request) : Fields where
  op := q.extractLsb' 0 8
  f := q.extractLsb' 8 8
  g := q.extractLsb' 16 16
  a := q.extractLsb' 32 32
  b := q.extractLsb' 64 32
  z := q.extractLsb' 96 32

/-- R81: the word of its fields. -/
def Fields.word (w : Fields) : Request := w.z ++ w.b ++ w.a ++ w.g ++ w.f ++ w.op

/-- Why the decoder refuses: for a request word the three conditions of R85, for a command phase R90 and R101. -/
inductive DecodeError where
  /-- fewer than sixteen bytes of a request word -/
  | shortRequest
  /-- OP is not listed in R82 -/
  | reservedOpcode (op : Byte)
  /-- a bit that R83 marks 0, or a bit of Z, is set -/
  | mustBeZero
  /-- SEQ_READ_RESULT with n = 0 or n > 7 -/
  | resultCount (n : Byte)
  /-- the first byte is none that the block sends (R90) -/
  | notACommand (b : Byte)
  /-- fewer bytes than the first byte's command phase has (R93, R94) -/
  | shortCommand
  deriving DecidableEq, Repr

/-- R85 (b): the instruction, when the bits marked 0 are zero. -/
def whenZero (zero : Bool) (i : Instr) : Except DecodeError Instr :=
  if zero then .ok i else .error .mustBeZero

/-- R240: the direction bit. -/
def directionOf (bit : BitVec 1) : Direction := if bit = 0 then .read else .write

/-- R82 and R83: the instruction of the fields, Z aside. -/
def decodeFields (w : Fields) : Except DecodeError Instr :=
  match w.op with
  | 0x01#8 => whenZero (w.f == 0 && w.a == 0 && w.b == 0) (.irqWait w.g)
  | 0x10#8 => whenZero (w.g == 0 && w.a == 0 && w.b == 0) (.ccWriteByte w.f)
  | 0x11#8 => whenZero (w.f == 0 && w.g == 0 && w.a == 0 && w.b == 0) .ccReadByte
  | 0x12#8 => whenZero (w.f == 0 && w.g == 0 && w.a == 0 && w.b == 0) .ccSenseInterrupt
  | 0x20#8 => whenZero (w.f.extractLsb' 3 5 == 0 && w.g.extractLsb' 8 8 == 0 && w.a == 0 && w.b == 0)
      (.seqSeek (w.f.extractLsb' 0 2) (w.f.extractLsb' 2 1) (w.g.extractLsb' 0 8))
  | 0x21#8 => whenZero (w.f.extractLsb' 2 6 == 0 && w.g == 0 && w.a == 0 && w.b == 0)
      (.seqRecalibrate (w.f.extractLsb' 0 2))
  | 0x22#8 => whenZero (w.f.extractLsb' 3 5 == 0 && w.a == 0 && w.b == 0)
      (.seqReadData (w.f.extractLsb' 0 2) (w.f.extractLsb' 2 1) (w.g.extractLsb' 0 8) (w.g.extractLsb' 8 8))
  | 0x23#8 => whenZero (w.f.extractLsb' 3 5 == 0 && w.a == 0 && w.b == 0)
      (.seqWriteData (w.f.extractLsb' 0 2) (w.f.extractLsb' 2 1) (w.g.extractLsb' 0 8) (w.g.extractLsb' 8 8))
  | 0x24#8 => whenZero (w.f == 0 && w.g == 0 && w.a == 0 && w.b == 0) .seqVersion
  | 0x25#8 => whenZero (w.f.extractLsb' 7 1 == 0 && w.g.extractLsb' 8 8 == 0 && w.a == 0 && w.b == 0)
      (.seqConfigure (w.f.extractLsb' 6 1) (w.f.extractLsb' 5 1) (w.f.extractLsb' 4 1) (w.f.extractLsb' 0 4)
        (w.g.extractLsb' 0 8))
  | 0x26#8 => whenZero (w.f == 0 && w.g == 0 && w.a == 0 && w.b == 0) .seqLock
  | 0x27#8 =>
    if w.g == 0 && w.a == 0 && w.b == 0 then
      if 1 ≤ w.f.toNat ∧ w.f.toNat ≤ 7 then .ok (.seqReadResult w.f) else .error (.resultCount w.f)
    else .error .mustBeZero
  | 0x30#8 => whenZero (w.f == 0 && w.g == 0 && w.b == 0) (.geoLbaToChs w.a)
  | 0x31#8 => whenZero (w.g.extractLsb' 8 8 == 0 && w.b == 0) (.geoChsToLba w.a w.f (w.g.extractLsb' 0 8))
  | 0x40#8 => whenZero (w.f.extractLsb' 1 7 == 0 && w.g == 0)
      (.dmaProgram w.a w.b (directionOf (w.f.extractLsb' 0 1)))
  | 0x50#8 => whenZero (w.a == 0 && w.b == 0) (.classify w.f (w.g.extractLsb' 0 8) (w.g.extractLsb' 8 8))
  | op => .error (.reservedOpcode op)

/-- R85: the instruction of a request word, or which condition it breaks. -/
def decodeRequest (q : Request) : Except DecodeError Instr :=
  if (fieldsOf q).z = 0 then decodeFields (fieldsOf q) else .error .mustBeZero

/-! ## The FDC command phase -/

/-- R90, R93, R94, R101: the command phase at the head of a byte list, with what follows it. -/
def decodeCommand : List Byte → Except DecodeError (Instr × List Byte)
  | [] => .error .shortCommand
  | first :: more =>
    match first with
    | 0xE6#8 =>
      match more with
      | dh :: c :: h :: r :: n :: eot :: gpl :: dtl :: rest => .ok (.fdcReadData dh c h r n eot gpl dtl, rest)
      | _ => .error .shortCommand
    | 0xE5#8 =>
      match more with
      | dh :: c :: h :: r :: n :: eot :: gpl :: dtl :: rest => .ok (.fdcWriteData dh c h r n eot gpl dtl, rest)
      | _ => .error .shortCommand
    | 0x0F#8 =>
      match more with
      | dh :: ncn :: rest => .ok (.fdcSeek dh ncn, rest)
      | _ => .error .shortCommand
    | 0x07#8 =>
      match more with
      | dh :: rest => .ok (.fdcRecalibrate dh, rest)
      | _ => .error .shortCommand
    | 0x08#8 => .ok (.fdcSenseInterrupt, more)
    | 0x10#8 => .ok (.fdcVersion, more)
    | 0x13#8 =>
      match more with
      | zero :: cfg :: pretrk :: rest => .ok (.fdcConfigure zero cfg pretrk, rest)
      | _ => .error .shortCommand
    | 0x94#8 => .ok (.fdcLock, more)
    | b => .error (.notACommand b)

/-- The instruction at the head of a byte list, in either format, with what follows it. -/
def decode (format : Format) (bytes : List Byte) : Except DecodeError (Instr × List Byte) :=
  match format with
  | .req128 =>
    match requestOfBytes bytes with
    | none => .error .shortRequest
    | some (q, rest) =>
      match decodeRequest q with
      | .ok i => .ok (i, rest)
      | .error e => .error e
  | .fdcCmd8 => decodeCommand bytes

/-! ## The encoder -/

/-- R240: the direction bit, as F holds it. -/
def directionByte : Direction → Byte
  | .read => 0
  | .write => 1

/-- The byte `0 ++ head ++ drive` (R83, R92): `(head << 2) | drive`. -/
def headDrive (head : BitVec 1) (drive : BitVec 2) : Byte := (0 : BitVec 5) ++ head ++ drive

/-- R95: the CONFIGURE byte `0 ++ eis ++ efifo ++ poll ++ thr`. -/
def cfgByte (eis efifo poll : BitVec 1) (thr : BitVec 4) : Byte := (0 : BitVec 1) ++ eis ++ efifo ++ poll ++ thr

/-- R82 and R83: the fields of a request; none for a command phase, which is no request. -/
def Instr.fields : Instr → Option Fields
  | .irqWait t => some ⟨0x01, 0, t, 0, 0, 0⟩
  | .ccWriteByte b => some ⟨0x10, b, 0, 0, 0, 0⟩
  | .ccReadByte => some ⟨0x11, 0, 0, 0, 0, 0⟩
  | .ccSenseInterrupt => some ⟨0x12, 0, 0, 0, 0, 0⟩
  | .seqSeek drive head cyl => some ⟨0x20, headDrive head drive, cyl.setWidth 16, 0, 0, 0⟩
  | .seqRecalibrate drive => some ⟨0x21, headDrive 0 drive, 0, 0, 0, 0⟩
  | .seqReadData drive head cyl sec => some ⟨0x22, headDrive head drive, sec ++ cyl, 0, 0, 0⟩
  | .seqWriteData drive head cyl sec => some ⟨0x23, headDrive head drive, sec ++ cyl, 0, 0, 0⟩
  | .seqVersion => some ⟨0x24, 0, 0, 0, 0, 0⟩
  | .seqConfigure eis efifo poll thr pretrk =>
    some ⟨0x25, cfgByte eis efifo poll thr, pretrk.setWidth 16, 0, 0, 0⟩
  | .seqLock => some ⟨0x26, 0, 0, 0, 0, 0⟩
  | .seqReadResult n => some ⟨0x27, n, 0, 0, 0, 0⟩
  | .geoLbaToChs lba => some ⟨0x30, 0, 0, lba, 0, 0⟩
  | .geoChsToLba cyl head sec => some ⟨0x31, head, sec.setWidth 16, cyl, 0, 0⟩
  | .dmaProgram addr count dir => some ⟨0x40, directionByte dir, 0, addr, count, 0⟩
  | .classify st0 st1 st2 => some ⟨0x50, st0, st2 ++ st1, 0, 0, 0⟩
  | .fdcReadData _ _ _ _ _ _ _ _ => none
  | .fdcWriteData _ _ _ _ _ _ _ _ => none
  | .fdcSeek _ _ => none
  | .fdcRecalibrate _ => none
  | .fdcSenseInterrupt => none
  | .fdcVersion => none
  | .fdcConfigure _ _ _ => none
  | .fdcLock => none

/-- The request word of a request; none for a command phase. -/
def Instr.requestWord (i : Instr) : Option Request := i.fields.map Fields.word

/-- R90, R93, R94: the bytes of a command phase, its first byte first; empty for a request. -/
def Instr.commandBytes : Instr → List Byte
  | .fdcReadData dh c h r n eot gpl dtl => [0xE6, dh, c, h, r, n, eot, gpl, dtl]
  | .fdcWriteData dh c h r n eot gpl dtl => [0xE5, dh, c, h, r, n, eot, gpl, dtl]
  | .fdcSeek dh ncn => [0x0F, dh, ncn]
  | .fdcRecalibrate dh => [0x07, dh]
  | .fdcSenseInterrupt => [0x08]
  | .fdcVersion => [0x10]
  | .fdcConfigure zero cfg pretrk => [0x13, zero, cfg, pretrk]
  | .fdcLock => [0x94]
  | .irqWait _ => []
  | .ccWriteByte _ => []
  | .ccReadByte => []
  | .ccSenseInterrupt => []
  | .seqSeek _ _ _ => []
  | .seqRecalibrate _ => []
  | .seqReadData _ _ _ _ => []
  | .seqWriteData _ _ _ _ => []
  | .seqVersion => []
  | .seqConfigure _ _ _ _ _ => []
  | .seqLock => []
  | .seqReadResult _ => []
  | .geoLbaToChs _ => []
  | .geoChsToLba _ _ _ => []
  | .dmaProgram _ _ _ => []
  | .classify _ _ _ => []

/-- The bytes of an instruction: the sixteen of a request word (R84), or those of a command phase. -/
def encode (i : Instr) : List Byte :=
  match i.requestWord with
  | some q => requestBytes q
  | none => i.commandBytes

/-! ## The opcode table's words -/

/-- The bytes the table's bits stand for: a row of at most 8 bits is the first byte of a command phase, its operand
bytes zero (the longest phase has nine bytes); any other row is a request word. -/
def tableBytes (nbits w : Nat) : Format × List Byte :=
  if nbits ≤ 8 then (.fdcCmd8, BitVec.ofNat 8 w :: List.replicate 8 0)
  else (.req128, requestBytes (BitVec.ofNat 128 w))

/-- The instruction the decoder reads from a word of the opcode table. -/
def decodeTableWord (nbits w : Nat) : Option Instr :=
  match decode (tableBytes nbits w).1 (tableBytes nbits w).2 with
  | .ok (i, _) => some i
  | .error _ => none

/-! ## The assembler -/

/-- A number as a field of its width; none when it does not fit (log entry 21). -/
def fitting (width n : Nat) : Option (BitVec width) :=
  if n < 2 ^ width then some (BitVec.ofNat width n) else none

/-- R120 and R121: the requests of a line. -/
def AsmLine.requests : AsmLine → Option (List Instr)
  | .irqWait t => do let t ← fitting 16 t; some [.irqWait t]
  | .irqWaitDefault => some [.irqWait Config.waitDefault]
  | .irqPoll => some [.irqWait 0]
  | .ccWrite b => do let b ← fitting 8 b; some [.ccWriteByte b]
  | .ccRead => some [.ccReadByte]
  | .ccSense => some [.ccSenseInterrupt]
  | .ccDrain4 => some [.ccSenseInterrupt, .ccSenseInterrupt, .ccSenseInterrupt, .ccSenseInterrupt]
  | .seqSeek d h c => do
    let d ← fitting 2 d; let h ← fitting 1 h; let c ← fitting 8 c
    some [.seqSeek d h c]
  | .seqRecal d => do let d ← fitting 2 d; some [.seqRecalibrate d]
  | .seqRead d h c s => do
    let d ← fitting 2 d; let h ← fitting 1 h; let c ← fitting 8 c; let s ← fitting 8 s
    some [.seqReadData d h c s]
  | .seqWrite d h c s => do
    let d ← fitting 2 d; let h ← fitting 1 h; let c ← fitting 8 c; let s ← fitting 8 s
    some [.seqWriteData d h c s]
  | .seqVersion => some [.seqVersion]
  | .seqConfig eis efifo poll thr pretrk => do
    let eis ← fitting 1 eis; let efifo ← fitting 1 efifo; let poll ← fitting 1 poll
    let thr ← fitting 4 thr; let pretrk ← fitting 8 pretrk
    some [.seqConfigure eis efifo poll thr pretrk]
  | .seqLock => some [.seqLock]
  | .seqResult n => do let n ← fitting 8 n; some [.seqReadResult n]
  | .geoChs lba => do let lba ← fitting 32 lba; some [.geoLbaToChs lba]
  | .geoLba c h s => do
    let c ← fitting 32 c; let h ← fitting 8 h; let s ← fitting 8 s
    some [.geoChsToLba c h s]
  | .dmaProg addr count dir => do
    let addr ← fitting 32 addr; let count ← fitting 32 count
    some [.dmaProgram addr count dir]
  | .dmaRead addr count => do
    let addr ← fitting 32 addr; let count ← fitting 32 count
    some [.dmaProgram addr count .read]
  | .dmaWrite addr count => do
    let addr ← fitting 32 addr; let count ← fitting 32 count
    some [.dmaProgram addr count .write]
  | .classify st0 st1 st2 => do
    let st0 ← fitting 8 st0; let st1 ← fitting 8 st1; let st2 ← fitting 8 st2
    some [.classify st0 st1 st2]

/-- The request words a host program hands to the block, line by line. -/
def assemble : List AsmLine → Option (List Request)
  | [] => some []
  | line :: lines => do
    let here ← line.requests
    let more ← assemble lines
    some (here.filterMap Instr.requestWord ++ more)

/-- R120: the value of a digit, decimal or hexadecimal. -/
def digitOf (base : Nat) (c : Char) : Option Nat :=
  let n := c.toNat
  let v := if 48 ≤ n ∧ n ≤ 57 then n - 48 else if 65 ≤ n ∧ n ≤ 70 then n - 55 else if 97 ≤ n ∧ n ≤ 102 then n - 87 else 16
  if v < base then some v else none

/-- The number of a digit string after what was read so far. -/
def digitsFrom (base acc : Nat) : List Char → Option Nat
  | [] => some acc
  | c :: cs => do let d ← digitOf base c; digitsFrom base (acc * base + d) cs

/-- R120: a number, decimal or hexadecimal with `0x`. -/
def numberOf : List Char → Option Nat
  | [] => none
  | '0' :: 'x' :: c :: cs => digitsFrom 16 0 (c :: cs)
  | cs => digitsFrom 10 0 cs

/-- White space in a line of assembly text (log entry 21). -/
def isBlank (c : Char) : Bool := c = ' ' || c = '\t' || c = '\r'

/-- A word without the white space around it. -/
def trimmed (cs : List Char) : List Char := (((cs.dropWhile isBlank).reverse).dropWhile isBlank).reverse

/-- The parts of a character list between the separators. -/
def splitAtChar (sep : Char) : List Char → List (List Char)
  | [] => [[]]
  | c :: cs =>
    if c = sep then [] :: splitAtChar sep cs
    else match splitAtChar sep cs with
      | [] => [[c]]
      | part :: parts => (c :: part) :: parts

/-- A line's text before its comment (R120: comments start with `;`). -/
def codePart (cs : List Char) : List Char := trimmed (cs.takeWhile (fun c => c != ';'))

/-- R120: the direction operand. -/
def directionWord (cs : List Char) : Option Direction :=
  if cs = ['r', 'e', 'a', 'd'] then some .read
  else if cs = ['w', 'r', 'i', 't', 'e'] then some .write
  else none

/-- R120 and R121: the line of a mnemonic and its operand words. -/
def lineOf (mnemonic : List Char) (words : List (List Char)) : Option AsmLine :=
  if mnemonic = "dma.prog".toList then
    match words with
    | [addr, count, dir] => do
      let addr ← numberOf addr; let count ← numberOf count; let dir ← directionWord dir
      some (.dmaProg addr count dir)
    | _ => none
  else do
    let ns ← words.mapM numberOf
    match ns with
    | [] =>
      if mnemonic = "irq.wait".toList then some .irqWaitDefault
      else if mnemonic = "irq.poll".toList then some .irqPoll
      else if mnemonic = "cc.read".toList then some .ccRead
      else if mnemonic = "cc.sense".toList then some .ccSense
      else if mnemonic = "cc.drain4".toList then some .ccDrain4
      else if mnemonic = "seq.version".toList then some .seqVersion
      else if mnemonic = "seq.lock".toList then some .seqLock
      else none
    | [x] =>
      if mnemonic = "irq.wait".toList then some (.irqWait x)
      else if mnemonic = "cc.write".toList then some (.ccWrite x)
      else if mnemonic = "seq.recal".toList then some (.seqRecal x)
      else if mnemonic = "seq.result".toList then some (.seqResult x)
      else if mnemonic = "geo.chs".toList then some (.geoChs x)
      else none
    | [x, y] =>
      if mnemonic = "dma.read".toList then some (.dmaRead x y)
      else if mnemonic = "dma.write".toList then some (.dmaWrite x y)
      else none
    | [x, y, z] =>
      if mnemonic = "seq.seek".toList then some (.seqSeek x y z)
      else if mnemonic = "geo.lba".toList then some (.geoLba x y z)
      else if mnemonic = "classify".toList then some (.classify x y z)
      else none
    | [x, y, z, u] =>
      if mnemonic = "seq.read".toList then some (.seqRead x y z u)
      else if mnemonic = "seq.write".toList then some (.seqWrite x y z u)
      else none
    | [x, y, z, u, v] => if mnemonic = "seq.config".toList then some (.seqConfig x y z u v) else none
    | _ => none

/-- R120: one line of text. An empty line, or one that holds only a comment, gives no line. -/
def parseLine (text : List Char) : Option (Option AsmLine) :=
  let code := codePart text
  if code = [] then some none
  else
    let mnemonic := code.takeWhile (fun c => !isBlank c)
    let tail := trimmed (code.dropWhile (fun c => !isBlank c))
    let words := if tail = [] then [] else (splitAtChar ',' tail).map trimmed
    (lineOf mnemonic words).map some

/-- R120 and R121: the request words of a host program's text, one request a line. -/
def assembleText (text : List Char) : Option (List Request) := do
  let lines ← (splitAtChar '\n' text).mapM parseLine
  assemble (lines.filterMap id)

end Sys2Proof
end

