-- ==== Sys2Proof/Machine/Operands.lean ====
section
/-!
DEFINITION. The operand and byte forms: ports, command phases, DMA register bytes, response fields (R62, R63, R86,
R92 to R96, R110 to R112).
-/

namespace Sys2Proof.Machine

/-! ## Ports (R62, R63) -/

/-- The FDC's Main Status Register. -/
def msrPort : Port := Config.fdcBase + 4
/-- The FDC's data register. -/
def fifoPort : Port := Config.fdcBase + 5
/-- The DMA controller's single-channel mask register. -/
def dmaMaskPort : Port := 0x0A
/-- The DMA controller's byte-pointer flip-flop clear. -/
def dmaFlipFlopPort : Port := 0x0C
/-- Channel 2's address register. -/
def dmaAddrPort : Port := 0x04
/-- Channel 2's page register. -/
def dmaPagePort : Port := 0x81
/-- Channel 2's count register. -/
def dmaCountPort : Port := 0x05
/-- The DMA controller's mode register. -/
def dmaModePort : Port := 0x0B

/-! ## Command phases -/

/-- R92: the drive/head select byte. -/
def driveHead (drive : BitVec 2) (head : BitVec 1) : Byte := headDrive head drive

/-- The command phase an instruction sends (R93, R94), as the row of its bytes; a command phase is its own. None for a
request that sends no command. -/
def commandOf : Instr → Option Instr
  | .ccSenseInterrupt => some .fdcSenseInterrupt
  | .seqSeek drive head cyl => some (.fdcSeek (driveHead drive head) cyl)
  | .seqRecalibrate drive => some (.fdcRecalibrate (driveHead drive 0))
  | .seqReadData drive head cyl sec =>
    some (.fdcReadData (driveHead drive head) cyl (head.setWidth 8) sec Config.nCode Config.eot Config.gpl Config.dtl)
  | .seqWriteData drive head cyl sec =>
    some (.fdcWriteData (driveHead drive head) cyl (head.setWidth 8) sec Config.nCode Config.eot Config.gpl Config.dtl)
  | .seqVersion => some .fdcVersion
  | .seqConfigure eis efifo poll thr pretrk => some (.fdcConfigure 0 (cfgByte eis efifo poll thr) pretrk)
  | .seqLock => some .fdcLock
  | .irqWait _ => none
  | .ccWriteByte _ => none
  | .ccReadByte => none
  | .seqReadResult _ => none
  | .geoLbaToChs _ => none
  | .geoChsToLba _ _ _ => none
  | .dmaProgram _ _ _ => none
  | .classify _ _ _ => none
  | .fdcReadData dh c h r n eot gpl dtl => some (.fdcReadData dh c h r n eot gpl dtl)
  | .fdcWriteData dh c h r n eot gpl dtl => some (.fdcWriteData dh c h r n eot gpl dtl)
  | .fdcSeek dh ncn => some (.fdcSeek dh ncn)
  | .fdcRecalibrate dh => some (.fdcRecalibrate dh)
  | .fdcSenseInterrupt => some .fdcSenseInterrupt
  | .fdcVersion => some .fdcVersion
  | .fdcConfigure zero cfg pretrk => some (.fdcConfigure zero cfg pretrk)
  | .fdcLock => some .fdcLock

/-- The bytes an instruction sends with SEND: those of its command phase, or none. -/
def commandPhase (i : Instr) : List Byte :=
  match commandOf i with
  | some c => encode c
  | none => []

/-- How many result bytes an operation reads itself (R96 with D20; R158, R161, R194, R199, R202). A command phase has
the count of the operation that sends it. -/
def resultCount : Instr → Nat
  | .ccReadByte => 1
  | .ccSenseInterrupt => 2
  | .seqVersion => 1
  | .seqLock => 1
  | .seqReadResult n => n.toNat
  | .fdcSenseInterrupt => 2
  | .fdcVersion => 1
  | .fdcLock => 1
  | .irqWait _ => 0
  | .ccWriteByte _ => 0
  | .seqSeek _ _ _ => 0
  | .seqRecalibrate _ => 0
  | .seqReadData _ _ _ _ => 0
  | .seqWriteData _ _ _ _ => 0
  | .seqConfigure _ _ _ _ _ => 0
  | .geoLbaToChs _ => 0
  | .geoChsToLba _ _ _ => 0
  | .dmaProgram _ _ _ => 0
  | .classify _ _ _ => 0
  | .fdcReadData _ _ _ _ _ _ _ _ => 0
  | .fdcWriteData _ _ _ _ _ _ _ _ => 0
  | .fdcSeek _ _ => 0
  | .fdcRecalibrate _ => 0
  | .fdcConfigure _ _ _ => 0

/-- The OP of the request that sends a command phase with this first byte (R90 with R161 and R182 to R199); 0 where no
operation sends it. -/
def senderOf (first : Byte) : Byte :=
  match first with
  | 0xE6#8 => 0x22
  | 0xE5#8 => 0x23
  | 0x0F#8 => 0x20
  | 0x07#8 => 0x21
  | 0x08#8 => 0x12
  | 0x10#8 => 0x24
  | 0x13#8 => 0x25
  | 0x94#8 => 0x26
  | _ => 0

/-! ## DMA register bytes -/

/-- R110: the mode byte. -/
def dmaModeByte : Direction → Byte
  | .read => 0x56
  | .write => 0x5A

/-- R111: mask channel 2. -/
def dmaMaskByte : Byte := 0x06

/-- R111: unmask channel 2. -/
def dmaUnmaskByte : Byte := 0x02

/-- R112: the count as programmed, `count − 1`. Used only when the checks of R241 hold, so count is not 0. -/
def dmaProgrammedCount (count : Word32) : Word32 := count - 1

/-- R242: the ten port writes, in order. -/
def dmaWrites (addr count : Word32) (dir : Direction) : List (Port × Byte) :=
  [ (dmaMaskPort, dmaMaskByte),
    (dmaFlipFlopPort, Config.dmaFfValue),
    (dmaAddrPort, addr.extractLsb' 0 8),
    (dmaAddrPort, addr.extractLsb' 8 8),
    (dmaPagePort, addr.extractLsb' 16 8),
    (dmaFlipFlopPort, Config.dmaFfValue),
    (dmaCountPort, (dmaProgrammedCount count).extractLsb' 0 8),
    (dmaCountPort, (dmaProgrammedCount count).extractLsb' 8 8),
    (dmaModePort, dmaModeByte dir),
    (dmaMaskPort, dmaUnmaskByte) ]

/-! ## Response fields -/

/-- RB with every byte 0 (R86). -/
def rbZero : Bytes7 := Vector.replicate 7 0

/-- RB with its first bytes given and the rest 0 (R86). -/
def rbOf (bytes : List Byte) : Bytes7 := Vector.ofFn (fun j : Fin 7 => bytes.getD j.val 0)

/-- R181: `res` before any byte is read: READ_SENTINEL in positions 0 to n−1, 0 in the others. -/
def rbUnread (n : Nat) : Bytes7 := Vector.ofFn (fun j : Fin 7 => if j.val < n then Config.readSentinel else 0)

end Sys2Proof.Machine
end

