-- ==== Sys2Proof/Machine/Ops.lean ====
section
/-!
DEFINITION. The named operations: the primitives of R24, the handshake of R150, taking the fault and RESET, the steps of
the IRQ and HOST agents, and fetching the instruction SEQ carries out.
-/

namespace Sys2Proof.Machine

/-! ## Primitives (R24) -/

/-- Records an event. -/
def State.record (e : Event) (s : State) : State := { s with events := s.events ++ [e] }

/-- The oracle's answer to the next port read (R24, D9): the next byte of `oracle`, or a free value. -/
def State.answer (s : State) : Byte :=
  match s.oracle with
  | v :: _ => v
  | [] => Config.oracleByte s.reads

/-- `IoRead8(p)`: the byte read is `s.answer`; this is the state after it. -/
def ioRead8 (p : Port) (s : State) : State :=
  { s with oracle := s.oracle.tail, reads := s.reads + 1, events := s.events ++ [.ioRd p s.answer] }

/-- A byte written to a 16-bit register through the byte-pointer flip-flop (R44): low byte first, then high. -/
def pairWrite (high : Bool) (v : Byte) (r : BitVec 16) : BitVec 16 :=
  if high then v ++ r.extractLsb' 0 8 else r.extractLsb' 8 8 ++ v

/-- R44: what a port write does to channel 2 of the DMA controller. A write to another port does nothing to it, and so
does a mask or mode write whose bits 1:0 select another channel. -/
def Dmac.write (p : Port) (v : Byte) (d : Dmac) : Dmac :=
  if p = dmaMaskPort then
    if v.extractLsb' 0 2 = Config.dmaChannel then { d with masked := v.getLsbD 2 } else d
  else if p = dmaFlipFlopPort then { d with flipFlop := false }
  else if p = dmaAddrPort then
    { d with
      baseAddr := pairWrite d.flipFlop v d.baseAddr
      curAddr := pairWrite d.flipFlop v d.curAddr
      flipFlop := !d.flipFlop }
  else if p = dmaPagePort then { d with page := v }
  else if p = dmaCountPort then
    { d with
      baseCount := pairWrite d.flipFlop v d.baseCount
      curCount := pairWrite d.flipFlop v d.curCount
      flipFlop := !d.flipFlop }
  else if p = dmaModePort then
    if v.extractLsb' 0 2 = Config.dmaChannel then { d with mode := v } else d
  else d

/-- `IoWrite8(p, v)`. -/
def ioWrite8 (p : Port) (v : Byte) (s : State) : State :=
  { s with dmac := s.dmac.write p v, events := s.events ++ [.ioWr p v] }

/-- `Tick()`. -/
def tick (s : State) : State := s.record .tick

/-- `Log(WRITE_TIMEOUT, b)` (R286). -/
def logWriteTimeout (b : Byte) (s : State) : State := s.record (.log .writeTimeout b)

/-! ## The end of an operation, the fault and RESET -/

/-- R39, R40, R48: the operation and its working values are discarded. -/
def State.discard (s : State) : State :=
  { s with op := none, pos := .first, polls := 0, remaining := 0, i := 0, cmd := [], res := rbZero }

/-- R86: the OP byte of the request being carried out. -/
def State.opcode (s : State) : Byte :=
  match s.op with
  | some q => (fieldsOf q).op
  | none => 0

/-- `Respond` (R24): the event, the phase, and the end of the operation. -/
def respond (status : Status) (rb : Bytes7) (rw0 rw1 : Word32) (s : State) : State :=
  { (s.record (.resp ⟨status, rb, rw0, rw1, s.opcode⟩)).discard with phase := .idle }

/-- `Fault(reason)` (R24, R281): taking the block's only exception. No response is delivered. -/
def raiseFault (reason : FaultReason) (s : State) : State :=
  { (s.record (.fault reason)).discard with fault := reason, phase := .faulted }

/-- The RESET step (R310), the only way out of FAULTED (R291). It makes no port access and changes no external
register (R50). -/
def resetBlock (s : State) : State :=
  { (s.record .reset).discard with phase := .idle, irqFlag := Config.irqFlagAtReset, fault := .none }

/-- R85, R285: the one step of an illegal request word. -/
def refuseRequest (s : State) : State := respond .illegalRequest rbZero 0 0 s

/-! ## The IRQ and HOST agents -/

/-- IRQ_SIGNAL (R130, R131). -/
def irqSignal (s : State) : State :=
  if s.irqFlag then s.record .irqCoalesced else { s.record .irqLatched with irqFlag := true }

/-- HOST's issue step (R32): the request is held and SEQ will start at its first statement (R35). -/
def issue (q : Request) (s : State) : State := { s with phase := .busy, op := some q }

/-- The block's turn while the phase is IDLE: HOST issues its next request, if it has one (R32). -/
def hostTurn (s : State) : Host.Outcome State Fault Refusal :=
  match s.requests with
  | q :: qs => .next (issue q { s with requests := qs })
  | [] => .fault .awaitingRequest

/-- Whose turn it is (log entry 1). -/
def State.turn (s : State) : Turn := s.schedule.headD .block

/-- The state once the turn is taken off the schedule. -/
def State.takeTurn (s : State) : State := { s with schedule := s.schedule.tail }

/-! ## The handshake (R150) -/

/-- One SEQ step of a handshake: HS_POLL's MSR read or its Tick, or the FIFO access that follows READY. `at_` places the
handshake's position, `access` is the step of the FIFO access, and `expired` what follows EXPIRED in the step of the
last MSR read. -/
def handshake (want : Ready) (at_ : Handshake → Pos) (access expired : State → State) (h : Handshake) (s : State) :
    State :=
  match h with
  | .poll =>
    if msrReady want s.answer then { ioRead8 msrPort s with pos := at_ .access }
    else if s.polls = Config.pollLimit then expired (ioRead8 msrPort s)
    else { ioRead8 msrPort s with pos := at_ .tick }
  | .tick => { tick s with polls := s.polls + 1, pos := at_ .poll }
  | .access => access s

/-! ## Fetching the instruction (R33) -/

/-- What SEQ is to carry out. -/
inductive Fetched where
  /-- the next step of this instruction -/
  | run (i : Instr)
  /-- the answer to an illegal request word -/
  | illegal
  /-- nothing: the state holds no operation, or SEND holds no command phase -/
  | lost
  deriving DecidableEq, Repr

/-- R33: the instruction SEQ carries out. It is the request in `op`; while SEQ is inside SEND it is the command phase in
`cmd`, which the request sends (log entry 7). -/
def fetch (s : State) : Fetched :=
  match s.op with
  | none => .lost
  | some q =>
    match s.pos with
    | .send _ =>
      match decodeCommand s.cmd with
      | .ok (c, []) => .run c
      | _ => .lost
    | _ =>
      match decodeRequest q with
      | .ok i => .run i
      | .error _ => .illegal

/-- A request word placed where SEQ takes its next instruction: as if HOST had just issued it (R32). -/
def loadRequest (q : Request) (s : State) : State := { (s.discard) with phase := .busy, op := some q }

/-- How many bytes the command phase with this first byte has (R93, R94, R101). -/
def commandLength (first : Byte) : Nat :=
  match first with
  | 0xE6#8 => 9
  | 0xE5#8 => 9
  | 0x0F#8 => 3
  | 0x07#8 => 2
  | 0x13#8 => 4
  | _ => 1

/-- A command phase placed where SEQ takes its next instruction: SEND at its first byte, in the operation that sends
this command (log entry 8). -/
def loadCommand (bytes : List Byte) (s : State) : State :=
  { (s.discard) with
    phase := .busy
    op := some ((senderOf (bytes.headD 0)).setWidth 128)
    pos := .send .poll
    cmd := bytes.take (commandLength (bytes.headD 0)) }

/-- The bytes of a table word placed where SEQ takes its next instruction. -/
def loadBytes (format : Format) (bytes : List Byte) (s : State) : State :=
  match format with
  | .req128 => loadRequest (BitVec.ofNat 128 (leNat (bytes.take 16))) s
  | .fdcCmd8 => loadCommand bytes s

end Sys2Proof.Machine
end

