-- ==== Sys2Proof/Machine/Classifier.lean ====
section
/-!
DEFINITION. ErrorClassifier (45_classifier.md).
-/

namespace Sys2Proof.Machine

/-- The error kinds (R88). -/
inductive ErrorKind where
  | success
  | incomplete
  | invalidCommand
  | pollingError
  | driveNotReady
  | addressMarkMissing
  | writeProtected
  | sectorNotFound
  | dmaTransferError
  | dataCrcError
  | endOfTrack
  | badTrack
  | wrongTrack
  | deletedAddressMark
  deriving DecidableEq, Repr

/-- The code of a kind, as CLASSIFY returns it (R88). -/
def ErrorKind.code : ErrorKind → Byte
  | .success => 0
  | .incomplete => 1
  | .invalidCommand => 2
  | .pollingError => 3
  | .driveNotReady => 4
  | .addressMarkMissing => 5
  | .writeProtected => 6
  | .sectorNotFound => 7
  | .dmaTransferError => 8
  | .dataCrcError => 9
  | .endOfTrack => 10
  | .badTrack => 11
  | .wrongTrack => 12
  | .deletedAddressMark => 13

/-- R103: the kind of the interrupt code; Success when it is 0. -/
def icKind (ic : BitVec 2) : ErrorKind :=
  match ic with
  | 0b01#2 => .incomplete
  | 0b10#2 => .invalidCommand
  | 0b11#2 => .pollingError
  | _ => .success

/-- R262: one row of the table. A row whose condition holds overwrites the kind found so far. -/
def overwrite (holds : Bool) (kind : ErrorKind) (k : ErrorKind) : ErrorKind := if holds then kind else k

/-- R260, R262, R263: the rows in table order, the last that holds deciding. -/
def kindOf (st0 st1 st2 : Byte) : ErrorKind :=
  let k := icKind (st0Ic st0)
  let k := overwrite (st0NotReady st0) .driveNotReady k
  let k := overwrite (st1MissingAddressMark st1 || st2MissingDataMark st2) .addressMarkMissing k
  let k := overwrite (st1NotWritable st1) .writeProtected k
  let k := overwrite (st1NoData st1) .sectorNotFound k
  let k := overwrite (st1Overrun st1) .dmaTransferError k
  let k := overwrite (st1DataError st1 || st2DataErrorInField st2) .dataCrcError k
  let k := overwrite (st1EndOfCylinder st1) .endOfTrack k
  let k := overwrite (st2BadCylinder st2) .badTrack k
  let k := overwrite (st2WrongCylinder st2) .wrongTrack k
  overwrite (st2ControlMark st2) .deletedAddressMark k

/-- CLASSIFY st0, st1, st2 (R262). -/
def execClassify (st0 st1 st2 : Byte) (s : State) : Host.Outcome State Fault Refusal :=
  .next (respond .ok (rbOf [(kindOf st0 st1 st2).code]) 0 0 s)

end Sys2Proof.Machine
end

