-- ==== Sys2Proof/Machine/Dma.lean ====
section
/-!
DEFINITION. DmaProgrammer (44_dma.md).
-/

namespace Sys2Proof.Machine

/-- R241: the first precondition that fails, if any, in exact arithmetic. -/
def dmaCheck (addr count : Word32) : Option FaultReason :=
  if addr.toNat ≥ 2 ^ 24 then some .dmaAddress
  else if count.toNat = 0 ∨ count.toNat - 1 ≥ 2 ^ 16 then some .dmaCount
  else if addr.toNat % 2 ^ 16 + (count.toNat - 1) ≥ 2 ^ 16 then some .dmaBoundary
  else none

/-- R242: the i-th of the ten writes; the response belongs to the step of the last one. -/
def dmaStep (addr count : Word32) (dir : Direction) (i : Nat) (s : State) : State :=
  match (dmaWrites addr count dir)[i]? with
  | some (p, v) =>
    if i + 1 < (dmaWrites addr count dir).length then { ioWrite8 p v s with pos := .dma, i := i + 1 }
    else respond .ok rbZero 0 0 (ioWrite8 p v s)
  | none => respond .ok rbZero 0 0 s

/-- DMA_PROGRAM addr, count, dir (R242). The checks and the fault are in the first step, with the first write. -/
def execDmaProgram (addr count : Word32) (dir : Direction) (s : State) : Host.Outcome State Fault Refusal :=
  .next <| match s.pos with
    | .dma => dmaStep addr count dir s.i s
    | _ =>
      match dmaCheck addr count with
      | some reason => raiseFault reason s
      | none => dmaStep addr count dir 0 s

end Sys2Proof.Machine
end

