-- ==== Sys2Proof/Machine/Geometry.lean ====
section
/-!
DEFINITION. GeometryTranslator (43_geometry.md): the formulas for any number of sectors per track, and the two requests
at SPT = 18.
-/

namespace Sys2Proof.Machine

/-- R220: cylinder, head and sector of an LBA. -/
def chsOf (spt lba : Nat) : Nat × Nat × Nat :=
  (lba / (2 * spt), lba % (2 * spt) / spt, lba % (2 * spt) % spt + 1)

/-- R224: the LBA of cylinder, head and sector; none outside its domain. -/
def lbaOf (spt cyl head sec : Nat) : Option Nat :=
  if head > 1 ∨ sec = 0 ∨ sec > spt then none
  else if (cyl * 2 + head) * spt + (sec - 1) ≥ 2 ^ 32 then none
  else some ((cyl * 2 + head) * spt + (sec - 1))

/-- GEO_LBA_TO_CHS lba (R221). -/
def execGeoLbaToChs (lba : Word32) (s : State) : Host.Outcome State Fault Refusal :=
  let (c, h, sec) := chsOf Config.spt lba.toNat
  .next (respond .ok (rbOf [BitVec.ofNat 8 h, BitVec.ofNat 8 sec]) (BitVec.ofNat 32 c) 0 s)

/-- GEO_CHS_TO_LBA cyl, head, sec (R224). -/
def execGeoChsToLba (cyl : Word32) (head sec : Byte) (s : State) : Host.Outcome State Fault Refusal :=
  .next <| match lbaOf Config.spt cyl.toNat head.toNat sec.toNat with
    | some v => respond .ok rbZero (BitVec.ofNat 32 v) 0 s
    | none => respond .invalidChs rbZero 0 0 s

end Sys2Proof.Machine
end

