-- ==== Sys2Proof/Machine/IrqGate.lean ====
section
/-!
DEFINITION. IrqGate: IRQ_WAIT (40_irqgate.md). IRQ_SIGNAL is an event and stands in Ops.lean.
-/

namespace Sys2Proof.Machine

/-- R132, R134: the check, one atomic step. -/
def irqCheck (s : State) : State :=
  if s.irqFlag then respond .ok (rbOf [1]) 0 0 { s with irqFlag := false }
  else if s.remaining = 0 then respond .timeout (rbOf [0]) 0 0 { s with irqFlag := false }
  else { s with pos := .waitTick }

/-- R132: the Tick between two checks. -/
def irqTick (s : State) : State := { tick s with remaining := s.remaining - 1, pos := .check }

/-- IRQ_WAIT t (R132). -/
def execIrqWait (t : BitVec 16) (s : State) : Host.Outcome State Fault Refusal :=
  .next <| match s.pos with
    | .check => irqCheck s
    | .waitTick => irqTick s
    | _ => irqCheck { s with remaining := t }

end Sys2Proof.Machine
end

