-- ==== Sys2Proof/Machine/CommandChannel.lean ====
section
/-!
DEFINITION. CommandChannel (41_command_channel.md) and the exchange that it shares with the sequencer: SEND (R180),
READN (R181), then Respond.
-/

namespace Sys2Proof.Machine

/-! ## SEND, READN and the response -/

/-- R181: READN(n) begins. -/
def startRecv (n : Nat) (s : State) : State :=
  { s with pos := .recv .poll, polls := 0, i := 0, res := rbUnread n }

/-- R180: SEND(cmd) begins. -/
def startSend (cmd : List Byte) (s : State) : State :=
  { s with pos := .send .poll, polls := 0, i := 0, cmd := cmd }

/-- R151, R180: `cmd[i]` goes to the FIFO. After the last byte READN begins, or the operation responds. -/
def sendAccess (cmd : List Byte) (n : Nat) (s : State) : State :=
  let s' := ioWrite8 fifoPort (cmd.getD s.i 0) s
  if s.i + 1 < cmd.length then { s' with pos := .send .poll, polls := 0, i := s.i + 1 }
  else if n = 0 then respond .ok rbZero (BitVec.ofNat 32 cmd.length) 0 s'
  else startRecv n s'

/-- R151, R180, D17: the write handshake for `cmd[i]` timed out. -/
def sendExpired (cmd : List Byte) (n : Nat) (s : State) : State :=
  respond .timeout (rbUnread n) (BitVec.ofNat 32 s.i) 0 (logWriteTimeout (cmd.getD s.i 0) s)

/-- R152, R181: `res[i]` comes from the FIFO. After the last byte the operation responds. -/
def recvAccess (sent n : Nat) (done : Bytes7 → Status) (s : State) : State :=
  let res := s.res.setIfInBounds s.i s.answer
  let s' := { ioRead8 fifoPort s with res := res }
  if s.i + 1 < n then { s' with pos := .recv .poll, polls := 0, i := s.i + 1 }
  else respond (done res) res (BitVec.ofNat 32 sent) (BitVec.ofNat 32 n) s'

/-- R152, R181, D17: the read handshake for `res[i]` timed out. No Log event. -/
def recvExpired (sent : Nat) (s : State) : State :=
  respond .timeout s.res (BitVec.ofNat 32 sent) (BitVec.ofNat 32 s.i) s

/-- One step of SEND. -/
def sendStep (cmd : List Byte) (n : Nat) (h : Handshake) (s : State) : State :=
  handshake .forWrite .send (sendAccess cmd n) (sendExpired cmd n) h s

/-- One step of READN. -/
def recvStep (sent n : Nat) (done : Bytes7 → Status) (h : Handshake) (s : State) : State :=
  handshake .forRead .recv (recvAccess sent n done) (recvExpired sent) h s

/-- One SEQ step of an operation that sends `cmd`, reads n result bytes, and responds with the status `done` of them.
At any position outside SEND and READN the step is the operation's first. -/
def exchange (cmd : List Byte) (n : Nat) (done : Bytes7 → Status) (s : State) : State :=
  match s.pos with
  | .send h => sendStep cmd n h s
  | .recv h => recvStep cmd.length n done h s
  | _ =>
    match cmd with
    | [] => recvStep 0 n done .poll (startRecv n s)
    | _ :: _ => sendStep cmd n .poll (startSend cmd s)

/-- The status of an operation that does not look at its result bytes. -/
def alwaysOk (_ : Bytes7) : Status := .ok

/-! ## CC_WRITE_BYTE, CC_READ_BYTE, CC_SENSE_INTERRUPT -/

/-- R155: the byte was accepted. -/
def putAccess (b : Byte) (s : State) : State := respond .ok rbZero 1 0 (ioWrite8 fifoPort b s)

/-- R155, R156: the write handshake timed out. -/
def putExpired (b : Byte) (s : State) : State := respond .timeout rbZero 0 0 (logWriteTimeout b s)

/-- One step of HS_WRITE(b) (R151) in CC_WRITE_BYTE. -/
def putStep (b : Byte) (h : Handshake) (s : State) : State :=
  handshake .forWrite .put (putAccess b) (putExpired b) h s

/-- CC_WRITE_BYTE b (R155). -/
def execCcWriteByte (b : Byte) (s : State) : Host.Outcome State Fault Refusal :=
  .next <| match s.pos with
    | .put h => putStep b h s
    | _ => putStep b .poll { s with polls := 0 }

/-- CC_READ_BYTE (R158). -/
def execCcReadByte (s : State) : Host.Outcome State Fault Refusal := .next (exchange [] 1 alwaysOk s)

/-- CC_SENSE_INTERRUPT (R161). -/
def execCcSenseInterrupt (s : State) : Host.Outcome State Fault Refusal :=
  .next (exchange (commandPhase .ccSenseInterrupt) 2 alwaysOk s)

end Sys2Proof.Machine
end

