-- ==== Sys2Proof/Machine/Sequencer.lean ====
section
/-!
DEFINITION. The command sequencer (42_command_sequencer.md): the SEQ operations, and the command phases they send
(30_encoding.md R90 to R96).
-/

namespace Sys2Proof.Machine

/-- R194: 0xFF means that no controller is present. -/
def versionStatus (res : Bytes7) : Status := if res[0] = 0xFF then .noController else .ok

/-! ## The SEQ operations -/

/-- SEQ_SEEK (R182). -/
def execSeqSeek (drive : BitVec 2) (head : BitVec 1) (cyl : Byte) (s : State) : Host.Outcome State Fault Refusal :=
  .next (exchange (commandPhase (.seqSeek drive head cyl)) 0 alwaysOk s)

/-- SEQ_RECALIBRATE (R185). -/
def execSeqRecalibrate (drive : BitVec 2) (s : State) : Host.Outcome State Fault Refusal :=
  .next (exchange (commandPhase (.seqRecalibrate drive)) 0 alwaysOk s)

/-- SEQ_READ_DATA (R188). -/
def execSeqReadData (drive : BitVec 2) (head : BitVec 1) (cyl sec : Byte) (s : State) :
    Host.Outcome State Fault Refusal :=
  .next (exchange (commandPhase (.seqReadData drive head cyl sec)) 0 alwaysOk s)

/-- SEQ_WRITE_DATA (R191). -/
def execSeqWriteData (drive : BitVec 2) (head : BitVec 1) (cyl sec : Byte) (s : State) :
    Host.Outcome State Fault Refusal :=
  .next (exchange (commandPhase (.seqWriteData drive head cyl sec)) 0 alwaysOk s)

/-- SEQ_VERSION (R194). -/
def execSeqVersion (s : State) : Host.Outcome State Fault Refusal :=
  .next (exchange (commandPhase .seqVersion) 1 versionStatus s)

/-- SEQ_CONFIGURE (R196). -/
def execSeqConfigure (eis efifo poll : BitVec 1) (thr : BitVec 4) (pretrk : Byte) (s : State) :
    Host.Outcome State Fault Refusal :=
  .next (exchange (commandPhase (.seqConfigure eis efifo poll thr pretrk)) 0 alwaysOk s)

/-- SEQ_LOCK (R199). -/
def execSeqLock (s : State) : Host.Outcome State Fault Refusal :=
  .next (exchange (commandPhase .seqLock) 1 alwaysOk s)

/-- SEQ_READ_RESULT n (R202). -/
def execSeqReadResult (n : Byte) (s : State) : Host.Outcome State Fault Refusal :=
  .next (exchange [] n.toNat alwaysOk s)

/-! ## The command phases

A command phase is carried out by SEND inside the one operation that sends it (log entry 7), so its step is that
operation's, with the bytes of the phase. -/

/-- The READ DATA command phase (R93), sent by SEQ_READ_DATA. -/
def execFdcReadData (dh c h r n eot gpl dtl : Byte) (s : State) : Host.Outcome State Fault Refusal :=
  .next (exchange (commandPhase (.fdcReadData dh c h r n eot gpl dtl)) 0 alwaysOk s)

/-- The WRITE DATA command phase (R93), sent by SEQ_WRITE_DATA. -/
def execFdcWriteData (dh c h r n eot gpl dtl : Byte) (s : State) : Host.Outcome State Fault Refusal :=
  .next (exchange (commandPhase (.fdcWriteData dh c h r n eot gpl dtl)) 0 alwaysOk s)

/-- The SEEK command phase (R94), sent by SEQ_SEEK. -/
def execFdcSeek (dh ncn : Byte) (s : State) : Host.Outcome State Fault Refusal :=
  .next (exchange (commandPhase (.fdcSeek dh ncn)) 0 alwaysOk s)

/-- The RECALIBRATE command phase (R94), sent by SEQ_RECALIBRATE. -/
def execFdcRecalibrate (dh : Byte) (s : State) : Host.Outcome State Fault Refusal :=
  .next (exchange (commandPhase (.fdcRecalibrate dh)) 0 alwaysOk s)

/-- The SENSE INTERRUPT command phase (R94), sent by CC_SENSE_INTERRUPT. -/
def execFdcSenseInterrupt (s : State) : Host.Outcome State Fault Refusal :=
  .next (exchange (commandPhase .fdcSenseInterrupt) 2 alwaysOk s)

/-- The VERSION command phase (R94), sent by SEQ_VERSION. -/
def execFdcVersion (s : State) : Host.Outcome State Fault Refusal :=
  .next (exchange (commandPhase .fdcVersion) 1 versionStatus s)

/-- The CONFIGURE command phase (R94, R95), sent by SEQ_CONFIGURE. -/
def execFdcConfigure (zero cfg pretrk : Byte) (s : State) : Host.Outcome State Fault Refusal :=
  .next (exchange (commandPhase (.fdcConfigure zero cfg pretrk)) 0 alwaysOk s)

/-- The LOCK command phase (R94), sent by SEQ_LOCK. -/
def execFdcLock (s : State) : Host.Outcome State Fault Refusal :=
  .next (exchange (commandPhase .fdcLock) 1 alwaysOk s)

end Sys2Proof.Machine
end

