-- ==== Sys2Proof/Machine/Dispatch.lean ====
section
/-!
DEFINITION. One arm per instruction: `exec i s` is the next SEQ step (R31) of instruction i at state s.
-/

namespace Sys2Proof.Machine

def exec (i : Instr) (s : State) : Host.Outcome State Fault Refusal :=
  match i with
  | .irqWait t => Sys2Proof.Machine.execIrqWait t s
  | .ccWriteByte b => Sys2Proof.Machine.execCcWriteByte b s
  | .ccReadByte => Sys2Proof.Machine.execCcReadByte s
  | .ccSenseInterrupt => Sys2Proof.Machine.execCcSenseInterrupt s
  | .seqSeek drive head cyl => Sys2Proof.Machine.execSeqSeek drive head cyl s
  | .seqRecalibrate drive => Sys2Proof.Machine.execSeqRecalibrate drive s
  | .seqReadData drive head cyl sec => Sys2Proof.Machine.execSeqReadData drive head cyl sec s
  | .seqWriteData drive head cyl sec => Sys2Proof.Machine.execSeqWriteData drive head cyl sec s
  | .seqVersion => Sys2Proof.Machine.execSeqVersion s
  | .seqConfigure eis efifo poll thr pretrk => Sys2Proof.Machine.execSeqConfigure eis efifo poll thr pretrk s
  | .seqLock => Sys2Proof.Machine.execSeqLock s
  | .seqReadResult n => Sys2Proof.Machine.execSeqReadResult n s
  | .geoLbaToChs lba => Sys2Proof.Machine.execGeoLbaToChs lba s
  | .geoChsToLba cyl head sec => Sys2Proof.Machine.execGeoChsToLba cyl head sec s
  | .dmaProgram addr count dir => Sys2Proof.Machine.execDmaProgram addr count dir s
  | .classify a b c => Sys2Proof.Machine.execClassify a b c s
  | .fdcReadData dh c h r n eot gpl dtl => Sys2Proof.Machine.execFdcReadData dh c h r n eot gpl dtl s
  | .fdcWriteData dh c h r n eot gpl dtl => Sys2Proof.Machine.execFdcWriteData dh c h r n eot gpl dtl s
  | .fdcSeek dh ncn => Sys2Proof.Machine.execFdcSeek dh ncn s
  | .fdcRecalibrate dh => Sys2Proof.Machine.execFdcRecalibrate dh s
  | .fdcSenseInterrupt => Sys2Proof.Machine.execFdcSenseInterrupt s
  | .fdcVersion => Sys2Proof.Machine.execFdcVersion s
  | .fdcConfigure zero cfg pretrk => Sys2Proof.Machine.execFdcConfigure zero cfg pretrk s
  | .fdcLock => Sys2Proof.Machine.execFdcLock s

end Sys2Proof.Machine
end

