-- ==== Sys2Proof/Machine/Step.lean ====
section
/-!
DEFINITION. One step of the machine: the step of one agent (R30). IRQ and RESET step in every phase (R130, R310); the
block's own turn is HOST's when the phase is IDLE (R32), SEQ's when it is BUSY (R31), and nobody's when it is FAULTED
(R281).
-/

namespace Sys2Proof.Machine

/-- The block's turn. -/
def blockTurn (s : State) : Host.Outcome State Fault Refusal :=
  match s.phase with
  | .idle => hostTurn s
  | .busy =>
    match fetch s with
    | .run i => exec i s
    | .illegal => .next (refuseRequest s)
    | .lost => .fault .lostSequence
  | .faulted => .fault .awaitingReset

/-- One step. -/
def step (s : State) : Host.Outcome State Fault Refusal :=
  match s.turn with
  | .irq => .next (irqSignal s.takeTurn)
  | .reset => .next (resetBlock s.takeTurn)
  | .block => blockTurn s.takeTurn

/-- s with a word of the opcode table stored where the next step takes its instruction: for a request, as if HOST had
just issued it; for a command phase, as if its operation had just begun SEND. The next turn is the block's. -/
def State.withFetchWord (s : State) (nbits w : Nat) : State :=
  { loadBytes (tableBytes nbits w).1 (tableBytes nbits w).2 s with schedule := .block :: s.schedule }

end Sys2Proof.Machine
end

