-- ==== Sys2Proof/Machine/Reading.lean ====
section
/-!
DEFINITION. The FIFO pseudocode of R150 to R202 read as straight programs over a list of oracle answers: what a whole
operation records and answers when nothing interrupts it. `none` means that the list ran out. It is written beside the
machine's small steps, so that a claim can compare the two.
-/

namespace Sys2Proof.Machine.Reading

/-- What a piece of pseudocode did: the events it recorded, the answers it left unread, and its value. -/
structure Ran (α : Type) where
  events : List Event
  rest : List Byte
  value : α
  deriving Repr

/-- Events recorded before those of a run. -/
def Ran.after {α : Type} (evs : List Event) (r : Ran α) : Ran α := { r with events := evs ++ r.events }

/-- R150: HS_POLL(want), with so many Ticks left. The value is READY. -/
def hsPoll (want : BitVec 2) : Nat → List Byte → Option (Ran Bool)
  | _, [] => none
  | ticks, m :: rest =>
    if m.extractLsb' 6 2 = want then some ⟨[.ioRd 0x3F4 m], rest, true⟩
    else match ticks with
      | 0 => some ⟨[.ioRd 0x3F4 m], rest, false⟩
      | ticks + 1 => (hsPoll want ticks rest).map (Ran.after [.ioRd 0x3F4 m, .tick])

/-- R151: HS_WRITE(b). The value is OK. -/
def hsWrite (b : Byte) (answers : List Byte) : Option (Ran Bool) :=
  match hsPoll 0b10 Config.pollLimit answers with
  | none => none
  | some ⟨evs, rest, true⟩ => some ⟨evs ++ [.ioWr 0x3F5 b], rest, true⟩
  | some ⟨evs, rest, false⟩ => some ⟨evs ++ [.log .writeTimeout b], rest, false⟩

/-- R152: HS_READ(). The value is the byte, or none on TIMEOUT. -/
def hsRead (answers : List Byte) : Option (Ran (Option Byte)) :=
  match hsPoll 0b11 Config.pollLimit answers with
  | none => none
  | some ⟨_, [], true⟩ => none
  | some ⟨evs, v :: rest, true⟩ => some ⟨evs ++ [.ioRd 0x3F5 v], rest, some v⟩
  | some ⟨evs, rest, false⟩ => some ⟨evs, rest, none⟩

/-- R180: SEND(cmd). The value is the number of bytes accepted. -/
def send : List Byte → List Byte → Option (Ran Nat)
  | [], answers => some ⟨[], answers, 0⟩
  | b :: bs, answers =>
    match hsWrite b answers with
    | none => none
    | some ⟨evs, rest, false⟩ => some ⟨evs, rest, 0⟩
    | some ⟨evs, rest, true⟩ => (send bs rest).map fun r => ⟨evs ++ r.events, r.rest, r.value + 1⟩

/-- R181: READN(n). The value is the list of the bytes read. -/
def readN : Nat → List Byte → Option (Ran (List Byte))
  | 0, answers => some ⟨[], answers, []⟩
  | n + 1, answers =>
    match hsRead answers with
    | none => none
    | some ⟨evs, rest, none⟩ => some ⟨evs, rest, []⟩
    | some ⟨evs, rest, some v⟩ => (readN n rest).map fun r => ⟨evs ++ r.events, r.rest, v :: r.value⟩

/-- R181: `res` when n bytes were asked for and these were read. -/
def resultBytes (n : Nat) (bytes : List Byte) : Bytes7 :=
  Vector.ofFn fun j : Fin 7 => bytes.getD j.val (if j.val < n then Config.readSentinel else 0)

/-- R92: `DH(drive, head)`, that is `(head << 2) | drive`. -/
def dh (drive : BitVec 2) (head : BitVec 1) : Byte := (head.setWidth 8 <<< 2) ||| drive.setWidth 8

/-- The bytes each operation gives to SEND (R161 and R182 to R199, with R90 and R93 to R95). -/
def sends : Instr → List Byte
  | .ccSenseInterrupt => [0x08]
  | .seqSeek drive head cyl => [0x0F, dh drive head, cyl]
  | .seqRecalibrate drive => [0x07, dh drive 0]
  | .seqReadData drive head cyl sec => [0xE6, dh drive head, cyl, head.setWidth 8, sec, 0x02, 0x12, 0x1B, 0xFF]
  | .seqWriteData drive head cyl sec => [0xE5, dh drive head, cyl, head.setWidth 8, sec, 0x02, 0x12, 0x1B, 0xFF]
  | .seqVersion => [0x10]
  | .seqConfigure eis efifo poll thr pretrk =>
    [0x13, 0x00,
      (eis.setWidth 8 <<< 6) ||| (efifo.setWidth 8 <<< 5) ||| (poll.setWidth 8 <<< 4) ||| thr.setWidth 8, pretrk]
  | .seqLock => [0x94]
  | _ => []

/-- How many bytes each operation reads with HS_READ or READN (R158, R161, R194, R199, R202). -/
def reads : Instr → Nat
  | .ccReadByte => 1
  | .ccSenseInterrupt => 2
  | .seqVersion => 1
  | .seqLock => 1
  | .seqReadResult n => n.toNat
  | _ => 0

/-- The status of an operation whose handshakes all succeeded (R194 for SEQ_VERSION). -/
def finalStatus (i : Instr) (bytes : List Byte) : Status :=
  if i = .seqVersion ∧ bytes = [0xFF] then .noController else .ok

/-- The whole of an operation that uses SEND and READN (R158, R161, R182 to R202): its events before the response, and
the response, whose opcode byte is given. -/
def operation (i : Instr) (opcode : Byte) (answers : List Byte) : Option (Ran Response) :=
  match send (sends i) answers with
  | none => none
  | some s =>
    if s.value < (sends i).length then
      some ⟨s.events, s.rest, ⟨.timeout, resultBytes (reads i) [], BitVec.ofNat 32 s.value, 0, opcode⟩⟩
    else
      match readN (reads i) s.rest with
      | none => none
      | some r =>
        some ⟨s.events ++ r.events, r.rest,
          ⟨if r.value.length < reads i then .timeout else finalStatus i r.value, resultBytes (reads i) r.value,
            BitVec.ofNat 32 s.value, BitVec.ofNat 32 r.value.length, opcode⟩⟩

/-- CC_WRITE_BYTE (R155). -/
def writeByte (b : Byte) (opcode : Byte) (answers : List Byte) : Option (Ran Response) :=
  (hsWrite b answers).map fun r =>
    if r.value then ⟨r.events, r.rest, ⟨.ok, rbZero, 1, 0, opcode⟩⟩
    else ⟨r.events, r.rest, ⟨.timeout, rbZero, 0, 0, opcode⟩⟩

/-- Whether an event is a step of its own (R24): a port access or a Tick. -/
def isPrimitive : Event → Bool
  | .ioRd _ _ => true
  | .ioWr _ _ => true
  | .tick => true
  | .log _ _ => false
  | .irqLatched => false
  | .irqCoalesced => false
  | .resp _ => false
  | .fault _ => false
  | .reset => false

/-- How many SEQ steps recorded these events (R24). -/
def steps (evs : List Event) : Nat := evs.countP isPrimitive

/-- How many of these events are port reads. -/
def portReads (evs : List Event) : Nat := evs.countP fun e => match e with | .ioRd _ _ => true | _ => false

end Sys2Proof.Machine.Reading
end

