-- ==== Sys2Proof/Safety.lean ====
section
/-!
DEFINITION. The terms claims use: runs, the end of an operation, the invariant of every state a run reaches, the step
bounds of R334, the words of the opcode table, and the outcomes of R284.
-/

namespace Sys2Proof.Machine

/-- k steps of the machine. -/
abbrev run (k : Nat) (s : State) : Host.Outcome State Fault Refusal := Host.Core.run Sys2Proof.core k s

/-- The operation-local values hold nothing (R40, R48; log entry 5). -/
def Cleared (s : State) : Prop :=
  s.pos = .first ∧ s.polls = 0 ∧ s.remaining = 0 ∧ s.i = 0 ∧ s.cmd = [] ∧ s.res = Vector.replicate 7 0

/-- s once its operation has recorded these events and responded (R24): the phase is IDLE, and the operation and its
local values are gone (R39, R48). -/
def ended (evs : List Event) (r : Response) (s : State) : State :=
  { s with
    phase := .idle, op := none, pos := .first, polls := 0, remaining := 0, i := 0, cmd := [],
    res := Vector.replicate 7 0, events := s.events ++ evs ++ [.resp r] }

/-- s once its operation has faulted (R281). -/
def faultedWith (reason : FaultReason) (s : State) : State :=
  { s with
    phase := .faulted, fault := reason, op := none, pos := .first, polls := 0, remaining := 0, i := 0, cmd := [],
    res := Vector.replicate 7 0, events := s.events ++ [.fault reason] }

/-- SEQ is at the first statement of the request q, nothing interrupts it, and the operation-local values hold nothing. -/
def Starts (q : Request) (s : State) : Prop :=
  s.phase = .busy ∧ s.op = some q ∧ Cleared s ∧ s.schedule = []

/-- The poll counter's range (R40, R150): below the limit when the next step is the Tick. -/
def PollsOk (h : Handshake) (s : State) : Prop :=
  match h with
  | .poll => s.polls ≤ Config.pollLimit
  | .tick => s.polls < Config.pollLimit
  | .access => s.polls ≤ Config.pollLimit

/-- The sequencing position is one of the statements of q's operation, with its local values in their ranges (R35, R40). -/
def AtStatement (q : Request) (s : State) : Prop :=
  match s.pos with
  | .first => Cleared s
  | .check => ∃ t, decodeRequest q = .ok (.irqWait t) ∧ s.remaining.toNat < t.toNat
  | .waitTick => ∃ t, decodeRequest q = .ok (.irqWait t) ∧ 0 < s.remaining.toNat ∧ s.remaining.toNat ≤ t.toNat
  | .put h => ∃ b, decodeRequest q = .ok (.ccWriteByte b) ∧ PollsOk h s
  | .send h => ∃ i, decodeRequest q = .ok i ∧ s.cmd = commandPhase i ∧ s.i < s.cmd.length ∧ PollsOk h s
  | .recv h =>
    ∃ i, decodeRequest q = .ok i ∧ s.cmd = commandPhase i ∧ s.i < resultCount i ∧ resultCount i ≤ 7 ∧ PollsOk h s ∧
      ∀ j : Fin 7, s.i ≤ j.val → s.res[j] = if j.val < resultCount i then Config.readSentinel else 0
  | .dma =>
    ∃ addr count dir, decodeRequest q = .ok (.dmaProgram addr count dir) ∧ dmaCheck addr count = none ∧
      0 < s.i ∧ s.i < 10

/-- The invariant: an operation is held exactly while the phase is BUSY (R39), a fault exactly while it is FAULTED (R38),
the local values hold nothing otherwise (R40), and SEQ is at a statement of the operation (R35). -/
structure Consistent (s : State) : Prop where
  busy_iff_op : s.phase = .busy ↔ s.op.isSome = true
  faulted_iff_fault : s.phase = .faulted ↔ s.fault ≠ .none
  cleared : s.phase ≠ .busy → Cleared s
  at_statement : ∀ q, s.op = some q → AtStatement q s

/-- R334: the fewest SEQ steps of an operation; for a command phase, of the operation that sends it. -/
def minSteps : Instr → Nat
  | .irqWait _ => 1
  | .ccWriteByte _ => 2
  | .ccReadByte => 2
  | .ccSenseInterrupt => 6
  | .seqSeek _ _ _ => 6
  | .seqRecalibrate _ => 4
  | .seqReadData _ _ _ _ => 18
  | .seqWriteData _ _ _ _ => 18
  | .seqVersion => 4
  | .seqConfigure _ _ _ _ _ => 8
  | .seqLock => 4
  | .seqReadResult n => 2 * n.toNat
  | .geoLbaToChs _ => 1
  | .geoChsToLba _ _ _ => 1
  | .dmaProgram _ _ _ => 1
  | .classify _ _ _ => 1
  | .fdcReadData _ _ _ _ _ _ _ _ => 18
  | .fdcWriteData _ _ _ _ _ _ _ _ => 18
  | .fdcSeek _ _ => 6
  | .fdcRecalibrate _ => 4
  | .fdcSenseInterrupt => 6
  | .fdcVersion => 4
  | .fdcConfigure _ _ _ => 8
  | .fdcLock => 4

/-- R334: the most SEQ steps of an operation; for a command phase, of the operation that sends it. -/
def maxSteps : Instr → Nat
  | .irqWait t => 2 * t.toNat + 1
  | .ccWriteByte _ => 1002
  | .ccReadByte => 1002
  | .ccSenseInterrupt => 3006
  | .seqSeek _ _ _ => 3006
  | .seqRecalibrate _ => 2004
  | .seqReadData _ _ _ _ => 9018
  | .seqWriteData _ _ _ _ => 9018
  | .seqVersion => 2004
  | .seqConfigure _ _ _ _ _ => 4008
  | .seqLock => 2004
  | .seqReadResult n => 1002 * n.toNat
  | .geoLbaToChs _ => 1
  | .geoChsToLba _ _ _ => 1
  | .dmaProgram _ _ _ => 10
  | .classify _ _ _ => 1
  | .fdcReadData _ _ _ _ _ _ _ _ => 9018
  | .fdcWriteData _ _ _ _ _ _ _ _ => 9018
  | .fdcSeek _ _ => 3006
  | .fdcRecalibrate _ => 2004
  | .fdcSenseInterrupt => 3006
  | .fdcVersion => 2004
  | .fdcConfigure _ _ _ => 4008
  | .fdcLock => 2004

/-- R284: the statuses an operation can respond with, ILLEGAL_REQUEST aside. -/
def possibleStatuses : Instr → List Status
  | .irqWait _ => [.ok, .timeout]
  | .ccWriteByte _ => [.ok, .timeout]
  | .ccReadByte => [.ok, .timeout]
  | .ccSenseInterrupt => [.ok, .timeout]
  | .seqSeek _ _ _ => [.ok, .timeout]
  | .seqRecalibrate _ => [.ok, .timeout]
  | .seqReadData _ _ _ _ => [.ok, .timeout]
  | .seqWriteData _ _ _ _ => [.ok, .timeout]
  | .seqVersion => [.ok, .timeout, .noController]
  | .seqConfigure _ _ _ _ _ => [.ok, .timeout]
  | .seqLock => [.ok, .timeout]
  | .seqReadResult _ => [.ok, .timeout]
  | .geoLbaToChs _ => [.ok]
  | .geoChsToLba _ _ _ => [.ok, .invalidChs]
  | .dmaProgram _ _ _ => [.ok]
  | .classify _ _ _ => [.ok]
  | .fdcReadData _ _ _ _ _ _ _ _ => [.ok, .timeout]
  | .fdcWriteData _ _ _ _ _ _ _ _ => [.ok, .timeout]
  | .fdcSeek _ _ => [.ok, .timeout]
  | .fdcRecalibrate _ => [.ok, .timeout]
  | .fdcSenseInterrupt => [.ok, .timeout]
  | .fdcVersion => [.ok, .timeout, .noController]
  | .fdcConfigure _ _ _ => [.ok, .timeout]
  | .fdcLock => [.ok, .timeout]

/-- R82, R83: the fixed bits of each request, as a match and a mask, in the order of the opcode table. They are the
table's own, but for CLASSIFY, whose A and B the table leaves free and R83 marks 0 (log entry 25). -/
def requestRows : List (Request × Request) :=
  [ (0x00000000000000000000000000000001, 0xFFFFFFFFFFFFFFFFFFFFFFFF0000FFFF),
    (0x00000000000000000000000000000010, 0xFFFFFFFFFFFFFFFFFFFFFFFFFFFF00FF),
    (0x00000000000000000000000000000011, 0xFFFFFFFFFFFFFFFFFFFFFFFFFFFFFFFF),
    (0x00000000000000000000000000000012, 0xFFFFFFFFFFFFFFFFFFFFFFFFFFFFFFFF),
    (0x00000000000000000000000000000020, 0xFFFFFFFFFFFFFFFFFFFFFFFFFF00F8FF),
    (0x00000000000000000000000000000021, 0xFFFFFFFFFFFFFFFFFFFFFFFFFFFFFCFF),
    (0x00000000000000000000000000000022, 0xFFFFFFFFFFFFFFFFFFFFFFFF0000F8FF),
    (0x00000000000000000000000000000023, 0xFFFFFFFFFFFFFFFFFFFFFFFF0000F8FF),
    (0x00000000000000000000000000000024, 0xFFFFFFFFFFFFFFFFFFFFFFFFFFFFFFFF),
    (0x00000000000000000000000000000025, 0xFFFFFFFFFFFFFFFFFFFFFFFFFF0080FF),
    (0x00000000000000000000000000000026, 0xFFFFFFFFFFFFFFFFFFFFFFFFFFFFFFFF),
    (0x00000000000000000000000000000027, 0xFFFFFFFFFFFFFFFFFFFFFFFFFFFF00FF),
    (0x00000000000000000000000000000030, 0xFFFFFFFFFFFFFFFF00000000FFFFFFFF),
    (0x00000000000000000000000000000031, 0xFFFFFFFFFFFFFFFF00000000FF0000FF),
    (0x00000000000000000000000000000040, 0xFFFFFFFF0000000000000000FFFFFEFF),
    (0x00000000000000000000000000000050, 0xFFFFFFFFFFFFFFFFFFFFFFFF000000FF) ]

/-- R85: a valid request word, by the fixed bits of the requests and the count of SEQ_READ_RESULT. -/
def ValidWord (q : Request) : Prop :=
  (∃ row ∈ requestRows, q &&& row.2 = row.1) ∧
    (q.extractLsb' 0 8 = 0x27 → 1 ≤ (q.extractLsb' 8 8).toNat ∧ (q.extractLsb' 8 8).toNat ≤ 7)

/-- R260: the rows of the classification table, each with its condition on the bits and its code, in table order. Row 1
is three rows here, one for each code of IC (R103). -/
def classifierRows (st0 st1 st2 : Byte) : List (Bool × Byte) :=
  [ (st0.extractLsb' 6 2 == 0b01, 1),
    (st0.extractLsb' 6 2 == 0b10, 2),
    (st0.extractLsb' 6 2 == 0b11, 3),
    (st0.getLsbD 3, 4),
    (st1.getLsbD 0 || st2.getLsbD 0, 5),
    (st1.getLsbD 1, 6),
    (st1.getLsbD 2, 7),
    (st1.getLsbD 4, 8),
    (st1.getLsbD 5 || st2.getLsbD 5, 9),
    (st1.getLsbD 7, 10),
    (st2.getLsbD 1, 11),
    (st2.getLsbD 4, 12),
    (st2.getLsbD 6, 13) ]

/-- R263: the code of the last row whose condition holds, or Success. -/
def lastMatch (rows : List (Bool × Byte)) : Byte := (rows.reverse.find? (fun row => row.1)).elim 0 (fun row => row.2)

/-- The ports the block may read (R61). -/
def readablePorts : List Port := [0x3F4, 0x3F5]

/-- The ports the block may write (R61). -/
def writablePorts : List Port := [0x3F5, 0x0A, 0x0C, 0x04, 0x81, 0x05, 0x0B]

/-- A port access that R61 allows; any event that is no port access is allowed. -/
def AllowedAccess : Event → Prop
  | .ioRd p _ => p ∈ readablePorts
  | .ioWr p _ => p ∈ writablePorts
  | .tick => True
  | .log _ _ => True
  | .irqLatched => True
  | .irqCoalesced => True
  | .resp _ => True
  | .fault _ => True
  | .reset => True

/-- The instructions whose steps are those of SEND and READN: they send a command phase or read result bytes. -/
def isExchange (i : Instr) : Bool := commandPhase i ≠ [] || resultCount i ≠ 0

/-- The status of an exchange whose handshakes all succeeded (R194 for VERSION). -/
def exchangeStatus (i : Instr) (rb : Bytes7) : Status :=
  if (i = .seqVersion ∨ i = .fdcVersion) ∧ rb[0] = 0xFF then .noController else .ok

end Sys2Proof.Machine
end

