-- ==== Sys2Proof/Certificates/Slice0/Obligations.lean ====
section
/-!
DEFINITION. The statements for the provers. Each docstring names the rules of spec/ it formalises; a clause that rests on
a choice of the model names its log entry. `ended`, `Consistent`, `Starts` and the other terms are in Safety.lean.
Wherever an operation ends (`ended`, `faultedWith`), its local values get the values that stand for "no value" (R40, R48;
log entry 5), and a step takes the turn off `schedule` (log entry 1).
-/

open Sys2Proof Sys2Proof.Machine

/-! ## Reset, the agents and the step -/

/-- R45, R46, R47, R311: the power-on state, with no Reset event. The latch's value is the parameter's default (R20; log
entry 12). -/
def Obligations.PowerOnStateIsWhatResetLeaves : Prop :=
  State.reset.phase = .idle ∧ State.reset.irqFlag = Config.irqFlagAtReset ∧ Config.irqFlagAtReset = false ∧
    State.reset.fault = .none ∧ State.reset.op = none ∧ State.reset.events = []

/-- R45 to R51, R310: the RESET step, from every state. It leaves the reset values, records Reset, makes no port access,
and changes no external register. The values that stand for "no value" in the local fields are log entry 5; that the
HOST's queue and the oracle are left alone is log entry 20. -/
def Obligations.ResetStepRestoresTheResetValues : Prop :=
  ∀ s, s.turn = .reset →
    step s = .next { State.reset with
      events := s.events ++ [.reset], dmac := s.dmac, oracle := s.oracle, reads := s.reads,
      schedule := s.schedule.tail, requests := s.requests }

/-- R130, R131: an IRQ_SIGNAL, from every state: the latch is set, and a second delivery changes nothing but the
history. -/
def Obligations.IrqSignalLatchesOrCoalesces : Prop :=
  ∀ s, s.turn = .irq →
    step s = .next { s with
      irqFlag := true, schedule := s.schedule.tail,
      events := s.events ++ [if s.irqFlag then .irqCoalesced else .irqLatched] }

/-- R32: HOST issues exactly when the phase is IDLE; in BUSY and FAULTED no step takes a request. -/
def Obligations.HostIssuesExactlyWhenIdle : Prop :=
  (∀ s q qs, s.turn = .block → s.phase = .idle → s.requests = q :: qs →
    step s = .next { s with phase := .busy, op := some q, requests := qs, schedule := s.schedule.tail }) ∧
  (∀ s t, step s = .next t → s.phase ≠ .idle → t.requests = s.requests)

/-- R31, R33: on the block's turn in BUSY, a step is exec of the instruction at that state: the decoded request, or,
inside SEND, the decoded command phase (log entry 7). Around exec the step only takes the turn off the schedule. -/
def Obligations.StepRunsTheFetchedInstruction : Prop :=
  (∀ s q i, s.turn = .block → s.phase = .busy → s.op = some q → (∀ h, s.pos ≠ .send h) → decodeRequest q = .ok i →
    step s = exec i s.takeTurn) ∧
  (∀ s q h c, s.turn = .block → s.phase = .busy → s.op = some q → s.pos = .send h → decodeCommand s.cmd = .ok (c, []) →
    step s = exec c s.takeTurn)

/-- R31, R180: at every statement of an operation the block's step is exec of the request HOST issued, also while SEND
has the command phase carried out as an instruction of its own (log entry 7). -/
def Obligations.EveryStatementIsAStepOfTheRequest : Prop :=
  ∀ s q i, Consistent s → s.turn = .block → s.op = some q → decodeRequest q = .ok i → step s = exec i s.takeTurn

/-- R31, R39: SEQ never overlaps two operations: a step from BUSY to BUSY keeps the request, and any other end of a BUSY
step holds none. -/
def Obligations.OneOperationAtATime : Prop :=
  ∀ s t, s.phase = .busy → step s = .next t → (t.phase = .busy → t.op = s.op) ∧ (t.phase ≠ .busy → t.op = none)

/-- R289: an IRQ_SIGNAL and the final check of an IRQ_WAIT come in either order. Signal first: the wait is satisfied.
Check first: the wait times out and the signal stays latched. -/
def Obligations.SignalAndFinalCheckInEitherOrder : Prop :=
  ∀ s q t, s.phase = .busy → s.op = some q → decodeRequest q = .ok (.irqWait t) → s.pos = .check → s.remaining = 0 →
    s.irqFlag = false →
    run 2 { s with schedule := [.irq, .block] } =
      .next (ended [.irqLatched] ⟨.ok, #v[1, 0, 0, 0, 0, 0, 0], 0, 0, q.extractLsb' 0 8⟩ { s with schedule := [] }) ∧
    run 2 { s with schedule := [.block, .irq] } =
      .next { ended [] ⟨.timeout, #v[0, 0, 0, 0, 0, 0, 0], 0, 0, q.extractLsb' 0 8⟩ s with
        schedule := [], irqFlag := true
        events := s.events ++ [.resp ⟨.timeout, #v[0, 0, 0, 0, 0, 0, 0], 0, 0, q.extractLsb' 0 8⟩, .irqLatched] }

/-- R313: a signal before RESET is cleared by it; a signal after RESET is latched. R313 says the first when
IRQ_FLAG_AT_RESET = 0, which is the parameter's default (R20) and the model's value (log entry 12). -/
def Obligations.SignalAndResetInEitherOrder : Prop :=
  ∀ s : State, (∃ t, run 2 { s with schedule := [.irq, .reset] } = .next t ∧ t.irqFlag = false) ∧
    (∃ t, run 2 { s with schedule := [.reset, .irq] } = .next t ∧ t.irqFlag = true)

/-! ## Encodings -/

/-- R81 to R84 and R93, R94, R101: decoding the encoding of a well-formed instruction, in its own format and whatever
follows it, gives it back. -/
def Obligations.DecodeOfEncodeIsTheInstruction : Prop :=
  ∀ i : Instr, i.wellFormed = true → ∀ rest, decode i.format (encode i ++ rest) = .ok (i, rest)

/-- R83, R89: a request word that decodes is the word of the decoded request, and that request is well formed: no bit of
a valid word is dropped. -/
def Obligations.EncodeOfDecodeIsTheWord : Prop :=
  ∀ q i, decodeRequest q = .ok i → i.requestWord = some q ∧ i.wellFormed = true ∧ i.format = .req128

/-- R90, R93, R94, R101: a command phase that decodes is the encoding of what was decoded. -/
def Obligations.CommandPhaseOfDecodeIsTheBytes : Prop :=
  ∀ bytes c rest, decodeCommand bytes = .ok (c, rest) → encode c ++ rest = bytes ∧ c.format = .fdcCmd8

/-- R85: exactly the valid words decode. -/
def Obligations.ExactlyTheValidWordsDecode : Prop :=
  ∀ q, (∃ i, decodeRequest q = .ok i) ↔ ValidWord q

/-- R85, R285: an illegal word is answered with ILLEGAL_REQUEST in its first step, with no port access and no other
effect. The opcode field is copied from OP (R86; log entry 23). -/
def Obligations.IllegalWordsAreAnsweredInOneStep : Prop :=
  ∀ s q, s.turn = .block → s.phase = .busy → s.op = some q → s.pos = .first → ¬ ValidWord q →
    step s = .next (ended [] ⟨.illegalRequest, #v[0, 0, 0, 0, 0, 0, 0], 0, 0, q.extractLsb' 0 8⟩ s.takeTurn)

/-- R122, R90: a few words and command bytes, written out, decode to the instructions they stand for. -/
def Obligations.WrittenWordsDecode : Prop :=
  decodeRequest 0x01F40001 = .ok (.irqWait 500) ∧
  decodeRequest 0x03050422 = .ok (.seqReadData 0 1 5 3) ∧
  decodeRequest 0x00005F25 = .ok (.seqConfigure 1 0 1 15 0) ∧
  decodeRequest 0x00000001000000000000000000010031 = .error .mustBeZero ∧
  decodeRequest 0x00000000000024000001000000000140 = .ok (.dmaProgram 0x10000 9216 .write) ∧
  decodeCommand [0x0F, 0x07, 0x4F] = .ok (.fdcSeek 0x07 0x4F, [])

/-- R84: a request word is sixteen bytes, byte k holding `q[8k+7:8k]`, and they give the word back. -/
def Obligations.RequestWordsAreLittleEndianBytes : Prop :=
  ∀ q, (requestBytes q).length = 16 ∧ (∀ k, k < 16 → (requestBytes q)[k]? = some (q.extractLsb' (8 * k) 8)) ∧
    ∀ rest, requestOfBytes (requestBytes q ++ rest) = some (q, rest)

/-- R90 to R95: the bytes of the command phase of each operation that sends one. -/
def Obligations.CommandPhasesAreTheRuleBytes : Prop :=
  commandPhase .ccSenseInterrupt = [0x08] ∧
  (∀ drive head cyl, commandPhase (.seqSeek drive head cyl) = [0x0F, Reading.dh drive head, cyl]) ∧
  (∀ drive, commandPhase (.seqRecalibrate drive) = [0x07, Reading.dh drive 0]) ∧
  (∀ drive head cyl sec, commandPhase (.seqReadData drive head cyl sec) =
    [0xE6, Reading.dh drive head, cyl, head.setWidth 8, sec, 2, 18, 0x1B, 0xFF]) ∧
  (∀ drive head cyl sec, commandPhase (.seqWriteData drive head cyl sec) =
    [0xE5, Reading.dh drive head, cyl, head.setWidth 8, sec, 2, 18, 0x1B, 0xFF]) ∧
  commandPhase .seqVersion = [0x10] ∧
  (∀ eis efifo poll thr pretrk, commandPhase (.seqConfigure eis efifo poll thr pretrk) =
    [0x13, 0x00, (0 : BitVec 1) ++ eis ++ efifo ++ poll ++ thr, pretrk]) ∧
  commandPhase .seqLock = [0x94]

/-- R121: what the pseudo-instructions stand for. -/
def Obligations.PseudoInstructionsExpand : Prop :=
  AsmLine.irqWaitDefault.requests = some [.irqWait 500] ∧ AsmLine.irqPoll.requests = some [.irqWait 0] ∧
  AsmLine.ccDrain4.requests =
    some [.ccSenseInterrupt, .ccSenseInterrupt, .ccSenseInterrupt, .ccSenseInterrupt] ∧
  (∀ addr count, (AsmLine.dmaRead addr count).requests = (AsmLine.dmaProg addr count .read).requests) ∧
  (∀ addr count, (AsmLine.dmaWrite addr count).requests = (AsmLine.dmaProg addr count .write).requests)

/-! ## IrqGate -/

/-- R132, R133, R134: the check of IRQ_WAIT, at its first statement and at its later ones, and its Tick. A check that
returns clears the latch, whichever way it returns. -/
def Obligations.IrqWaitChecksAndTicks : Prop :=
  ∀ t s,
    (s.pos = .first → s.irqFlag = true → exec (.irqWait t) s =
      .next { ended [] ⟨.ok, #v[1, 0, 0, 0, 0, 0, 0], 0, 0, s.opcode⟩ s with irqFlag := false }) ∧
    (s.pos = .first → s.irqFlag = false → t = 0 → exec (.irqWait t) s =
      .next (ended [] ⟨.timeout, #v[0, 0, 0, 0, 0, 0, 0], 0, 0, s.opcode⟩ s)) ∧
    (s.pos = .first → s.irqFlag = false → t ≠ 0 → exec (.irqWait t) s =
      .next { s with remaining := t, pos := .waitTick }) ∧
    (s.pos = .waitTick → exec (.irqWait t) s =
      .next { s with remaining := s.remaining - 1, pos := .check, events := s.events ++ [.tick] }) ∧
    (s.pos = .check → s.irqFlag = true → exec (.irqWait t) s =
      .next { ended [] ⟨.ok, #v[1, 0, 0, 0, 0, 0, 0], 0, 0, s.opcode⟩ s with irqFlag := false }) ∧
    (s.pos = .check → s.irqFlag = false → s.remaining = 0 → exec (.irqWait t) s =
      .next (ended [] ⟨.timeout, #v[0, 0, 0, 0, 0, 0, 0], 0, 0, s.opcode⟩ s)) ∧
    (s.pos = .check → s.irqFlag = false → s.remaining ≠ 0 → exec (.irqWait t) s =
      .next { s with pos := .waitTick })

/-- R132, R138: with no signal, IRQ_WAIT t takes exactly t Ticks and t+1 checks, 2t+1 steps, and answers TIMEOUT. -/
def Obligations.IrqWaitWithoutSignalTimesOut : Prop :=
  ∀ q t s, decodeRequest q = .ok (.irqWait t) → Starts q s → s.irqFlag = false →
    run (2 * t.toNat + 1) s =
      .next (ended (List.replicate t.toNat .tick) ⟨.timeout, #v[0, 0, 0, 0, 0, 0, 0], 0, 0, q.extractLsb' 0 8⟩ s)

/-- R132, R135: a signal after the k-th Tick, k from 0 to t, satisfies the next check: the answer is OK after k Ticks,
and the latch is clear. -/
def Obligations.IrqWaitSeesASignalAfterAnyTick : Prop :=
  ∀ q t s k, decodeRequest q = .ok (.irqWait t) → Starts q s → s.irqFlag = false → k ≤ t.toNat →
    run (2 * k + 2) { s with schedule := List.replicate (2 * k) .block ++ [.irq] } =
      .next (ended (List.replicate k .tick ++ [.irqLatched])
        ⟨.ok, #v[1, 0, 0, 0, 0, 0, 0], 0, 0, q.extractLsb' 0 8⟩ s)

/-- R37: the latch changes only in an IRQ_SIGNAL step, in RESET, and in a check of IRQ_WAIT that returns. -/
def Obligations.OnlySignalResetAndReturningChecksWriteTheLatch : Prop :=
  ∀ s t, step s = .next t → t.irqFlag ≠ s.irqFlag →
    (s.turn = .irq ∧ t.irqFlag = true) ∨
    (s.turn = .reset ∧ t.irqFlag = Config.irqFlagAtReset) ∨
    (s.turn = .block ∧ t.irqFlag = false ∧ t.phase = .idle ∧
      ∃ q τ, s.op = some q ∧ decodeRequest q = .ok (.irqWait τ))

/-! ## The handshake, SEND and READN -/

/-- The first step of an operation that sends a command or reads result bytes is the first MSR read of its first
handshake (R33, R150, R180, R181), with its local values set. -/
def Obligations.ExchangesBeginWithAStatusRead : Prop :=
  ∀ i s, isExchange i = true → s.pos = .first →
    (commandPhase i ≠ [] → exec i s = .next { s with
      cmd := commandPhase i, i := 0, polls := 0, oracle := s.oracle.tail, reads := s.reads + 1
      events := s.events ++ [.ioRd 0x3F4 s.answer]
      pos := if s.answer.extractLsb' 6 2 = 0b10 then .send .access else .send .tick }) ∧
    (commandPhase i = [] → exec i s = .next { s with
      i := 0, polls := 0, oracle := s.oracle.tail, reads := s.reads + 1
      res := Vector.ofFn fun j : Fin 7 => if j.val < resultCount i then Config.readSentinel else 0
      events := s.events ++ [.ioRd 0x3F4 s.answer]
      pos := if s.answer.extractLsb' 6 2 = 0b11 then .recv .access else .recv .tick })

/-- R150: the loop body of HS_POLL in each of its three places: the MSR read that matches, the MSR read that does not
with Ticks left, and the Tick. Only MSR bits 7:6 are compared. -/
def Obligations.HandshakePollsReadTheStatusAndTick : Prop :=
  ∀ i s (at_ : Handshake → Pos) (want : BitVec 2),
    (isExchange i = true ∧ at_ = .send ∧ want = 0b10) ∨ (isExchange i = true ∧ at_ = .recv ∧ want = 0b11) ∨
      ((∃ b, i = .ccWriteByte b) ∧ at_ = .put ∧ want = 0b10) →
    (s.pos = at_ .poll → s.answer.extractLsb' 6 2 = want → exec i s = .next { s with
      pos := at_ .access, oracle := s.oracle.tail, reads := s.reads + 1
      events := s.events ++ [.ioRd 0x3F4 s.answer] }) ∧
    (s.pos = at_ .poll → s.answer.extractLsb' 6 2 ≠ want → s.polls ≠ 500 → exec i s = .next { s with
      pos := at_ .tick, oracle := s.oracle.tail, reads := s.reads + 1
      events := s.events ++ [.ioRd 0x3F4 s.answer] }) ∧
    (s.pos = at_ .tick → exec i s = .next { s with
      pos := at_ .poll, polls := s.polls + 1, events := s.events ++ [.tick] })

/-- R151, R180: the FIFO access of SEND. The byte at the index goes to 0x3F5 and nothing else is written. After the last
byte an operation with no result bytes answers OK with RW0 = the length, and any other begins READN. -/
def Obligations.SendWritesEachByteInOrder : Prop :=
  ∀ i s b, s.pos = .send .access → (commandPhase i)[s.i]? = some b →
    exec i s = .next
      (if s.i + 1 < (commandPhase i).length then
        { s with pos := .send .poll, polls := 0, i := s.i + 1, events := s.events ++ [.ioWr 0x3F5 b] }
      else if resultCount i = 0 then
        ended [.ioWr 0x3F5 b]
          ⟨.ok, #v[0, 0, 0, 0, 0, 0, 0], BitVec.ofNat 32 (commandPhase i).length, 0, s.opcode⟩ s
      else
        { s with
          pos := .recv .poll, polls := 0, i := 0, events := s.events ++ [.ioWr 0x3F5 b]
          res := Vector.ofFn fun j : Fin 7 => if j.val < resultCount i then Config.readSentinel else 0 })

/-- R151, R180: a write handshake in SEND that expires: no FIFO write, a Log event with the byte, and TIMEOUT with RW0 =
the bytes accepted, RW1 = 0 and READ_SENTINEL in every result position. -/
def Obligations.SendTimeoutLogsAndStops : Prop :=
  ∀ i s b, s.pos = .send .poll → (commandPhase i)[s.i]? = some b → s.polls = 500 →
    s.answer.extractLsb' 6 2 ≠ 0b10 →
    exec i s = .next
      { ended [.ioRd 0x3F4 s.answer, .log .writeTimeout b]
          ⟨.timeout, Vector.ofFn fun j : Fin 7 => if j.val < resultCount i then Config.readSentinel else 0,
            BitVec.ofNat 32 s.i, 0, s.opcode⟩ s with
        oracle := s.oracle.tail, reads := s.reads + 1 }

/-- R152, R181: the FIFO access of READN. One byte is read from 0x3F5 into the position of its index. After the last
byte the operation answers with the result bytes, RW0 = the command bytes sent and RW1 = the count; the status is OK, or
NO_CONTROLLER for a VERSION answer of 0xFF (R194). -/
def Obligations.ReadPutsEachByteInItsPosition : Prop :=
  ∀ i s, isExchange i = true → s.pos = .recv .access →
    exec i s = .next
      (if s.i + 1 < resultCount i then
        { s with
          pos := .recv .poll, polls := 0, i := s.i + 1, res := s.res.setIfInBounds s.i s.answer
          oracle := s.oracle.tail, reads := s.reads + 1, events := s.events ++ [.ioRd 0x3F5 s.answer] }
      else
        { ended [.ioRd 0x3F5 s.answer]
            ⟨exchangeStatus i (s.res.setIfInBounds s.i s.answer), s.res.setIfInBounds s.i s.answer,
              BitVec.ofNat 32 (commandPhase i).length, BitVec.ofNat 32 (resultCount i), s.opcode⟩ s with
          oracle := s.oracle.tail, reads := s.reads + 1 })

/-- R152, R159, R181: a read handshake in READN that expires: no FIFO access, no Log event, and TIMEOUT with RW1 = the
bytes read. In every state that meets the invariant, the positions not read hold READ_SENTINEL and those past the count
hold 0. -/
def Obligations.ReadTimeoutKeepsTheSentinels : Prop :=
  ∀ i s q, Consistent s → s.op = some q → decodeRequest q = .ok i → s.pos = .recv .poll → s.polls = 500 →
    s.answer.extractLsb' 6 2 ≠ 0b11 →
    exec i s = .next
      { ended [.ioRd 0x3F4 s.answer]
          ⟨.timeout, s.res, BitVec.ofNat 32 (commandPhase i).length, BitVec.ofNat 32 s.i, q.extractLsb' 0 8⟩ s with
        oracle := s.oracle.tail, reads := s.reads + 1 } ∧
    ∀ j : Fin 7, s.i ≤ j.val → s.res[j] = if j.val < resultCount i then Config.readSentinel else 0

/-- R155, R156, with R151: CC_WRITE_BYTE's FIFO write and its answer, and its timeout: the byte is not written, it is
logged, and the answer is TIMEOUT. -/
def Obligations.WriteByteCompletesOrLogs : Prop :=
  ∀ b s,
    (s.pos = .put .access → exec (.ccWriteByte b) s =
      .next (ended [.ioWr 0x3F5 b] ⟨.ok, #v[0, 0, 0, 0, 0, 0, 0], 1, 0, s.opcode⟩ s)) ∧
    (s.pos = .put .poll → s.polls = 500 → s.answer.extractLsb' 6 2 ≠ 0b10 → exec (.ccWriteByte b) s =
      .next { ended [.ioRd 0x3F4 s.answer, .log .writeTimeout b]
          ⟨.timeout, #v[0, 0, 0, 0, 0, 0, 0], 0, 0, s.opcode⟩ s with
        oracle := s.oracle.tail, reads := s.reads + 1 }) ∧
    (s.pos = .first → exec (.ccWriteByte b) s =
      .next { s with
        polls := 0, oracle := s.oracle.tail, reads := s.reads + 1
        events := s.events ++ [.ioRd 0x3F4 s.answer]
        pos := if s.answer.extractLsb' 6 2 = 0b10 then .put .access else .put .tick })

/-- What the FIFO operations leave unchanged (R53): the latch, S.fault, the DMA channel, the schedule and HOST's queue.
The wait budget is unchanged until the operation ends. -/
def Obligations.FifoOperationsWriteNoBlockState : Prop :=
  ∀ i s t, (isExchange i = true ∨ ∃ b, i = .ccWriteByte b) → exec i s = .next t →
    t.irqFlag = s.irqFlag ∧ t.fault = s.fault ∧ t.dmac = s.dmac ∧ t.schedule = s.schedule ∧ t.requests = s.requests ∧
    (t.phase = s.phase ∧ t.op = s.op ∧ t.remaining = s.remaining ∨ t.phase = .idle ∧ t.op = none ∧ Cleared t)

/-! ## Whole operations -/

/-- R150 to R152, R155, R158, R161: run without interruption, a CommandChannel operation records what its pseudocode
records on the oracle's answers, answers what it answers, and takes one step for each of its port accesses and Ticks. -/
def Obligations.CommandChannelFollowsItsPseudocode : Prop :=
  (∀ q b s r, decodeRequest q = .ok (.ccWriteByte b) → Starts q s →
    Reading.writeByte b (q.extractLsb' 0 8) s.oracle = some r →
    run (Reading.steps r.events) s = .next { ended r.events r.value s with
      oracle := r.rest, reads := s.reads + Reading.portReads r.events }) ∧
  (∀ q i s r, decodeRequest q = .ok i → i = .ccReadByte ∨ i = .ccSenseInterrupt → Starts q s →
    Reading.operation i (q.extractLsb' 0 8) s.oracle = some r →
    run (Reading.steps r.events) s = .next { ended r.events r.value s with
      oracle := r.rest, reads := s.reads + Reading.portReads r.events })

/-- R180 to R182, R185, R188, R191, R194, R196, R199, R202: run without interruption, a sequencer operation sends the
bytes of its rule, reads its result bytes, stops at the first timeout, and answers as its pseudocode says, whatever the
oracle answers. -/
def Obligations.SequencerFollowsItsPseudocode : Prop :=
  ∀ q i s r, decodeRequest q = .ok i →
    ((∃ drive head cyl, i = .seqSeek drive head cyl) ∨ (∃ drive, i = .seqRecalibrate drive) ∨
      (∃ drive head cyl sec, i = .seqReadData drive head cyl sec) ∨
      (∃ drive head cyl sec, i = .seqWriteData drive head cyl sec) ∨ i = .seqVersion ∨
      (∃ eis efifo poll thr pretrk, i = .seqConfigure eis efifo poll thr pretrk) ∨ i = .seqLock ∨
      (∃ n, i = .seqReadResult n)) →
    Starts q s → Reading.operation i (q.extractLsb' 0 8) s.oracle = some r →
    run (Reading.steps r.events) s = .next { ended r.events r.value s with
      oracle := r.rest, reads := s.reads + Reading.portReads r.events }

/-- R298, R334: every operation ends, whatever the oracle answers and however IRQ_SIGNAL steps are interleaved with it,
as long as no RESET comes. l is any order of turns with as many turns of the block as R334's most steps: after some k of
these turns the operation is over, it was BUSY until then, and the block has had at least R334's fewest steps. -/
def Obligations.OperationsEndWithinTheirStepBounds : Prop :=
  ∀ q i s l, decodeRequest q = .ok i → Starts q s → (∀ x ∈ l, x ≠ .reset) → l.count .block = maxSteps i →
    ∃ k t, k ≤ l.length ∧ run k { s with schedule := l } = .next t ∧ t.phase ≠ .busy ∧
      minSteps i ≤ (l.take k).count .block ∧
      ∀ j, j < k → ∃ u, run j { s with schedule := l } = .next u ∧ u.phase = .busy

/-! ## GeometryTranslator -/

/-- R221: GEO_LBA_TO_CHS, whole: one step, the formula at SPT = 18, no other effect. -/
def Obligations.LbaToChsAnswersTheFormula : Prop :=
  ∀ lba s, exec (.geoLbaToChs lba) s = .next (ended []
    ⟨.ok, #v[BitVec.ofNat 8 (lba.toNat % 36 / 18), BitVec.ofNat 8 (lba.toNat % 36 % 18 + 1), 0, 0, 0, 0, 0],
      BitVec.ofNat 32 (lba.toNat / 36), 0, s.opcode⟩ s)

/-- R224: GEO_CHS_TO_LBA, whole: OK with the LBA inside the domain, INVALID_CHS with every field 0 outside it. -/
def Obligations.ChsToLbaAnswersOrRejects : Prop :=
  ∀ (cyl : Word32) (head sec : Byte) s,
    exec (.geoChsToLba cyl head sec) s = .next (ended []
      (if head.toNat > 1 ∨ sec.toNat = 0 ∨ sec.toNat > 18 ∨
          (cyl.toNat * 2 + head.toNat) * 18 + (sec.toNat - 1) ≥ 2 ^ 32 then
        ⟨.invalidChs, #v[0, 0, 0, 0, 0, 0, 0], 0, 0, s.opcode⟩
      else
        ⟨.ok, #v[0, 0, 0, 0, 0, 0, 0],
          BitVec.ofNat 32 ((cyl.toNat * 2 + head.toNat) * 18 + (sec.toNat - 1)), 0, s.opcode⟩) s)

/-- R220, R225: for every SPT the spec allows, the CHS of a 32-bit LBA is in range and its LBA is the one given; and at
SPT = 18 the request GEO_CHS_TO_LBA, given what GEO_LBA_TO_CHS answers for an LBA, answers OK with that LBA. -/
def Obligations.LbaToChsToLbaIsTheIdentity : Prop :=
  (∀ spt lba, 1 ≤ spt → spt ≤ 255 → lba < 2 ^ 32 →
    (chsOf spt lba).2.1 ≤ 1 ∧ 1 ≤ (chsOf spt lba).2.2 ∧ (chsOf spt lba).2.2 ≤ spt ∧
    lbaOf spt (chsOf spt lba).1 (chsOf spt lba).2.1 (chsOf spt lba).2.2 = some lba) ∧
  ∀ (lba cyl rw1 : Word32) (head sec b2 b3 b4 b5 b6 : Byte) op s,
    exec (.geoLbaToChs lba) s = .next (ended [] ⟨.ok, #v[head, sec, b2, b3, b4, b5, b6], cyl, rw1, op⟩ s) →
    exec (.geoChsToLba cyl head sec) s = .next (ended [] ⟨.ok, #v[0, 0, 0, 0, 0, 0, 0], lba, 0, s.opcode⟩ s)

/-- R226: for every SPT the spec allows, an accepted CHS triple is the CHS of its LBA. -/
def Obligations.ChsToLbaToChsIsTheIdentity : Prop :=
  ∀ spt c h s v, 1 ≤ spt → spt ≤ 255 → lbaOf spt c h s = some v → chsOf spt v = (c, h, s) ∧ v < 2 ^ 32

/-! ## DmaProgrammer -/

/-- R241, R281, R282: the first precondition of DMA_PROGRAM that fails faults the block in the first step: S.fault, the
phase and the event are set, and nothing is written and nothing is answered. -/
def Obligations.DmaPreconditionsFaultInOrder : Prop :=
  ∀ (addr count : Word32) dir s, s.pos = .first →
    (addr.toNat ≥ 2 ^ 24 →
      exec (.dmaProgram addr count dir) s = .next (faultedWith .dmaAddress s)) ∧
    (addr.toNat < 2 ^ 24 → (count.toNat = 0 ∨ count.toNat - 1 ≥ 2 ^ 16) →
      exec (.dmaProgram addr count dir) s = .next (faultedWith .dmaCount s)) ∧
    (addr.toNat < 2 ^ 24 → count.toNat ≠ 0 → count.toNat - 1 < 2 ^ 16 →
      addr.toNat % 2 ^ 16 + (count.toNat - 1) ≥ 2 ^ 16 →
      exec (.dmaProgram addr count dir) s = .next (faultedWith .dmaBoundary s))

/-- R242, R243, R244: an accepted DMA_PROGRAM makes its ten writes in order, one a step, answers OK in the last, and
leaves the channel's registers at the values of R244 whatever they held. Those registers are the external
controller's: that State holds them, and that the flip-flop is clear again after the second count write, are the model's
(log entry 14). -/
def Obligations.DmaProgramWritesTheChannel : Prop :=
  ∀ q addr count dir s, decodeRequest q = .ok (.dmaProgram addr count dir) → Starts q s →
    addr.toNat < 2 ^ 24 → count.toNat ≠ 0 → count.toNat - 1 < 2 ^ 16 →
    addr.toNat % 2 ^ 16 + (count.toNat - 1) < 2 ^ 16 →
    let k : Word32 := count - 1
    let mode : Byte := if dir = .read then 0x56 else 0x5A
    run 10 s = .next { ended
        [.ioWr 0x0A 0x06, .ioWr 0x0C 0xFF, .ioWr 0x04 (addr.extractLsb' 0 8), .ioWr 0x04 (addr.extractLsb' 8 8),
          .ioWr 0x81 (addr.extractLsb' 16 8), .ioWr 0x0C 0xFF, .ioWr 0x05 (k.extractLsb' 0 8),
          .ioWr 0x05 (k.extractLsb' 8 8), .ioWr 0x0B mode, .ioWr 0x0A 0x02]
        ⟨.ok, #v[0, 0, 0, 0, 0, 0, 0], 0, 0, q.extractLsb' 0 8⟩ s with
      dmac := {
        baseAddr := addr.extractLsb' 0 16, curAddr := addr.extractLsb' 0 16, page := addr.extractLsb' 16 8
        baseCount := k.extractLsb' 0 16, curCount := k.extractLsb' 0 16, mode := mode, masked := false
        flipFlop := false } }

/-- R242: each step of DMA_PROGRAM at its i-th write, and the last one, which answers OK. -/
def Obligations.DmaStepsWriteOnePortEach : Prop :=
  ∀ addr count dir s p v, s.pos = .dma → (dmaWrites addr count dir)[s.i]? = some (p, v) →
    exec (.dmaProgram addr count dir) s = .next
      (if s.i + 1 < 10 then
        { s with i := s.i + 1, dmac := s.dmac.write p v, events := s.events ++ [.ioWr p v] }
      else
        { ended [.ioWr p v] ⟨.ok, #v[0, 0, 0, 0, 0, 0, 0], 0, 0, s.opcode⟩ s with dmac := s.dmac.write p v })

/-- R314, R310: a DMA_PROGRAM that RESET stops after its k-th write, k from 1 to 9, has made its first k writes and no
other, leaves the channel's registers as those writes left them and the channel masked, and sends no response. That State
holds the registers is the model's (log entry 14). -/
def Obligations.AbandonedDmaProgramLeavesTheChannelMasked : Prop :=
  ∀ q addr count dir s k, decodeRequest q = .ok (.dmaProgram addr count dir) → Starts q s →
    dmaCheck addr count = none → 1 ≤ k → k < 10 →
    ∃ t, run (k + 1) { s with schedule := List.replicate k .block ++ [.reset] } = .next t ∧ t.phase = .idle ∧
      t.events = s.events ++ ((dmaWrites addr count dir).take k).map (fun w => .ioWr w.1 w.2) ++ [.reset] ∧
      t.dmac = ((dmaWrites addr count dir).take k).foldl (fun d w => d.write w.1 w.2) s.dmac ∧ t.dmac.masked = true

/-! ## ErrorClassifier -/

/-- R260, R262, R263: CLASSIFY answers OK with the code of the last row of the table whose condition holds, and has no
other effect. -/
def Obligations.ClassifyAnswersTheLastMatchingRow : Prop :=
  ∀ st0 st1 st2 s, exec (.classify st0 st1 st2) s = .next (ended []
    ⟨.ok, #v[lastMatch (classifierRows st0 st1 st2), 0, 0, 0, 0, 0, 0], 0, 0, s.opcode⟩ s)

/-- R266: the code is at most 13 and depends only on the 14 named bits. -/
def Obligations.ClassifyDependsOnTheNamedBits : Prop :=
  ∀ st0 st1 st2 : Byte, (kindOf st0 st1 st2).code.toNat ≤ 13 ∧
    kindOf (st0 &&& 0xC8) (st1 &&& 0xB7) (st2 &&& 0x73) = kindOf st0 st1 st2

/-! ## Rules of the whole machine -/

/-- The invariant holds at power-on. -/
def Obligations.PowerOnMeetsTheInvariant : Prop := Consistent State.reset

/-- R35, R38, R39, R40: every step of every agent keeps the invariant. -/
def Obligations.EveryStepKeepsTheInvariant : Prop :=
  ∀ s t, Consistent s → step s = .next t → Consistent t

/-- R298: the block never hangs: in every BUSY state that meets the invariant every agent's turn has a next state. -/
def Obligations.BusyStatesAlwaysStep : Prop :=
  ∀ s, Consistent s → s.phase = .busy → ∃ t, step s = .next t

/-- R36, R281, R298: in FAULTED the block's turn is stuck, and no step but RESET changes the phase or S.fault or sends a
response. -/
def Obligations.FaultedIsLeftOnlyByReset : Prop :=
  ∀ s, s.phase = .faulted →
    (s.turn = .block → step s = .fault .awaitingReset) ∧
    (∀ t, step s = .next t → t.phase ≠ .faulted ∨ t.fault ≠ s.fault → s.turn = .reset) ∧
    (∀ t, step s = .next t → ∀ r, .resp r ∈ t.events → .resp r ∈ s.events)

/-- R38: S.fault is sticky: only RESET clears it, and only a DMA_PROGRAM writes a reason. -/
def Obligations.OnlyDmaProgramAndResetWriteTheFault : Prop :=
  ∀ s t, step s = .next t → t.fault ≠ s.fault →
    (s.turn = .reset ∧ t.fault = .none) ∨
    (s.turn = .block ∧ t.phase = .faulted ∧
      ∃ q addr count dir, s.op = some q ∧ decodeRequest q = .ok (.dmaProgram addr count dir) ∧
        dmaCheck addr count = some t.fault)

/-- R284: in every state that meets the invariant, a step of an operation answers only with the statuses of its row, and
only DMA_PROGRAM takes the block to FAULTED. -/
def Obligations.OperationsHaveOnlyTheirOutcomes : Prop :=
  ∀ s t q i, Consistent s → s.op = some q → decodeRequest q = .ok i → step s = .next t →
    (∀ r evs, t.events = s.events ++ evs → .resp r ∈ evs → r.status ∈ possibleStatuses i) ∧
    (t.phase = .faulted → ∃ addr count dir, i = .dmaProgram addr count dir)

/-- R86: a step that responds copies OP into the response and leaves the phase IDLE. -/
def Obligations.ResponsesCopyTheOpcode : Prop :=
  ∀ s t r evs, step s = .next t → t.events = s.events ++ evs → .resp r ∈ evs →
    t.phase = .idle ∧ ∃ q, s.op = some q ∧ r.opcode = q.extractLsb' 0 8

/-- R194, R195: NO_CONTROLLER is answered only in a step that reads 0xFF from the FIFO, so never by a timeout. -/
def Obligations.NoControllerOnlyAfterReadingFF : Prop :=
  ∀ s t r evs, Consistent s → step s = .next t → t.events = s.events ++ evs → .resp r ∈ evs → r.status = .noController →
    s.answer = 0xFF ∧ evs = [.ioRd 0x3F5 0xFF, .resp r] ∧ r.rb = #v[0xFF, 0, 0, 0, 0, 0, 0] ∧ r.rw0 = 1 ∧ r.rw1 = 1

/-- R61: no step reads a port but 0x3F4 and 0x3F5, or writes one but 0x3F5 and the six DMA ports. -/
def Obligations.OnlyTheNamedPortsAreAccessed : Prop :=
  ∀ s t, step s = .next t → ∃ evs, t.events = s.events ++ evs ∧ ∀ e ∈ evs, AllowedAccess e

/-- R24, R70: a step adds to the history, and holds at most one port access or Tick. -/
def Obligations.EachStepHoldsAtMostOnePrimitive : Prop :=
  ∀ s t, step s = .next t → ∃ evs, t.events = s.events ++ evs ∧ Reading.steps evs ≤ 1

/-- R41, R61: the DMA channel's registers are never read: a step does the same whatever they hold, but for their own new
values. -/
def Obligations.DmaRegistersInfluenceNothing : Prop :=
  ∀ s t d, step s = .next t → ∃ d', step { s with dmac := d } = .next { t with dmac := d' }

/-- R25, R41: nothing recorded is ever read back: a step adds the same events whatever the history holds. -/
def Obligations.HistoryInfluencesNothing : Prop :=
  ∀ s t past, step s = .next t →
    ∃ evs, t.events = s.events ++ evs ∧ step { s with events := past } = .next { t with events := past ++ evs }
end

