-- ==== Sys2Proof/Laws/Decode.lean ====
section
/-!
SUPPORT. The small lemmas of the encodings: a word and its fields, bytes and numbers, and the packed bytes.
-/

namespace Sys2Proof

/-! ## A word and its fields (R81) -/

/-- The fields of a word give the word back. -/
theorem word_fieldsOf (q : Request) : (fieldsOf q).word = q := by
  simp only [Fields.word, fieldsOf]
  apply BitVec.eq_of_getLsbD_eq
  intro i hi
  simp only [BitVec.getLsbD_append, BitVec.getLsbD_extractLsb', Nat.sub_sub]
  by_cases h1 : i < 8
  · simp [h1]
  by_cases h2 : i < 16
  · simp [h1, show i - 8 < 8 by omega, show 8 + (i - 8) = i by omega]
  by_cases h3 : i < 32
  · simp [h1, show ¬ i - 8 < 8 by omega, show i - 16 < 16 by omega, show 16 + (i - 16) = i by omega]
  by_cases h4 : i < 64
  · simp [h1, show ¬ i - 8 < 8 by omega, show ¬ i - 16 < 16 by omega, show i - 32 < 32 by omega,
      show 32 + (i - 32) = i by omega]
  by_cases h5 : i < 96
  · simp [h1, show ¬ i - 8 < 8 by omega, show ¬ i - 16 < 16 by omega, show ¬ i - 32 < 32 by omega,
      show i - 64 < 32 by omega, show 64 + (i - 64) = i by omega]
  · simp [h1, show ¬ i - 8 < 8 by omega, show ¬ i - 16 < 16 by omega, show ¬ i - 32 < 32 by omega,
      show ¬ i - 64 < 32 by omega, show i - 96 < 32 by omega, show 96 + (i - 96) = i by omega]

/-- The word of some fields has those fields. -/
theorem fieldsOf_word (w : Fields) : fieldsOf w.word = w := by
  obtain ⟨op, f, g, a, b, z⟩ := w
  simp only [Fields.word, fieldsOf, Fields.mk.injEq]
  refine ⟨?_, ?_, ?_, ?_, ?_, ?_⟩ <;> apply BitVec.eq_of_getLsbD_eq <;> intro i hi <;>
    simp only [BitVec.getLsbD_append, BitVec.getLsbD_extractLsb', hi, decide_true, Bool.true_and, Nat.zero_add]
  · simp
  · simp [show ¬ 8 + i < 8 by omega, hi]
  · simp [show ¬ 16 + i < 8 by omega, show ¬ 16 + i - 8 < 8 by omega, show 16 + i - 8 - 8 = i by omega, hi]
  · simp [show ¬ 32 + i < 8 by omega, show ¬ 32 + i - 8 < 8 by omega, show 32 + i - 8 - 8 = 16 + i by omega, hi]
  · simp [show ¬ 64 + i < 8 by omega, show ¬ 64 + i - 8 < 8 by omega, show 64 + i - 8 - 8 = 48 + i by omega,
      show ¬ 48 + i < 16 by omega, show 48 + i - 16 = 32 + i by omega, hi]
  · simp [show ¬ 96 + i < 8 by omega, show ¬ 96 + i - 8 < 8 by omega, show 96 + i - 8 - 8 = 80 + i by omega,
      show ¬ 80 + i < 16 by omega, show ¬ 64 + i < 32 by omega, show 80 + i - 16 = 64 + i by omega,
      show 64 + i - 32 = 32 + i by omega, hi]

/-! ## Bytes and numbers (R84) -/

theorem leBytes_length (k n : Nat) : (leBytes k n).length = k := by
  induction k generalizing n with
  | zero => rfl
  | succ k ih => simp [leBytes, ih]

theorem leNat_leBytes (k n : Nat) : leNat (leBytes k n) = n % 256 ^ k := by
  induction k generalizing n with
  | zero => simp [leBytes, leNat, Nat.mod_one]
  | succ k ih =>
    rw [leBytes, leNat, ih, BitVec.toNat_ofNat, Nat.pow_succ' (n := k), Nat.mod_mul]

theorem leBytes_get (k n j : Nat) (h : j < k) : (leBytes k n)[j]? = some (BitVec.ofNat 8 (n / 256 ^ j)) := by
  induction k generalizing n j with
  | zero => omega
  | succ k ih =>
    cases j with
    | zero => simp [leBytes]
    | succ j =>
      simp only [leBytes, List.getElem?_cons_succ]
      rw [ih _ _ (by omega), Nat.div_div_eq_div_mul, Nat.pow_succ']

/-! ## The packed bytes -/

/-- The fields of the drive/head byte (R92). -/
theorem headDrive_fields (a : BitVec 1) (d : BitVec 2) : (headDrive a d).extractLsb' 3 5 = 0 ∧
    (headDrive a d).extractLsb' 2 1 = a ∧ (headDrive a d).extractLsb' 0 2 = d := by
  revert a d; decide

/-- The fields of the CONFIGURE byte (R95). -/
theorem cfgByte_fields (a b c : BitVec 1) (d : BitVec 4) : (cfgByte a b c d).extractLsb' 7 1 = 0 ∧
    (cfgByte a b c d).extractLsb' 6 1 = a ∧ (cfgByte a b c d).extractLsb' 5 1 = b
  ∧ (cfgByte a b c d).extractLsb' 4 1 = c ∧ (cfgByte a b c d).extractLsb' 0 4 = d := by
  revert a b c d; decide

/-- The direction bit (R240). -/
theorem directionByte_field (d : Direction) : (directionByte d).extractLsb' 1 7 = 0 ∧
    directionOf ((directionByte d).extractLsb' 0 1) = d := by
  cases d <;> decide

end Sys2Proof
end

