-- ==== Sys2Proof/Laws/State.lean ====
section
/-!
SUPPORT. One lemma per field for each named update of the state, true by rfl, so that no proof unfolds a record update.
-/

namespace Sys2Proof.Machine

/-! ## record -/

@[simp] theorem record_phase (e : Event) (s : State) : (s.record e).phase = s.phase := rfl
@[simp] theorem record_irqFlag (e : Event) (s : State) : (s.record e).irqFlag = s.irqFlag := rfl
@[simp] theorem record_fault (e : Event) (s : State) : (s.record e).fault = s.fault := rfl
@[simp] theorem record_op (e : Event) (s : State) : (s.record e).op = s.op := rfl
@[simp] theorem record_pos (e : Event) (s : State) : (s.record e).pos = s.pos := rfl
@[simp] theorem record_polls (e : Event) (s : State) : (s.record e).polls = s.polls := rfl
@[simp] theorem record_remaining (e : Event) (s : State) : (s.record e).remaining = s.remaining := rfl
@[simp] theorem record_i (e : Event) (s : State) : (s.record e).i = s.i := rfl
@[simp] theorem record_cmd (e : Event) (s : State) : (s.record e).cmd = s.cmd := rfl
@[simp] theorem record_res (e : Event) (s : State) : (s.record e).res = s.res := rfl
@[simp] theorem record_events (e : Event) (s : State) : (s.record e).events = s.events ++ [e] := rfl
@[simp] theorem record_dmac (e : Event) (s : State) : (s.record e).dmac = s.dmac := rfl
@[simp] theorem record_oracle (e : Event) (s : State) : (s.record e).oracle = s.oracle := rfl
@[simp] theorem record_reads (e : Event) (s : State) : (s.record e).reads = s.reads := rfl
@[simp] theorem record_schedule (e : Event) (s : State) : (s.record e).schedule = s.schedule := rfl
@[simp] theorem record_requests (e : Event) (s : State) : (s.record e).requests = s.requests := rfl

/-! ## IoRead8 -/

@[simp] theorem ioRead8_phase (p : Port) (s : State) : (ioRead8 p s).phase = s.phase := rfl
@[simp] theorem ioRead8_irqFlag (p : Port) (s : State) : (ioRead8 p s).irqFlag = s.irqFlag := rfl
@[simp] theorem ioRead8_fault (p : Port) (s : State) : (ioRead8 p s).fault = s.fault := rfl
@[simp] theorem ioRead8_op (p : Port) (s : State) : (ioRead8 p s).op = s.op := rfl
@[simp] theorem ioRead8_pos (p : Port) (s : State) : (ioRead8 p s).pos = s.pos := rfl
@[simp] theorem ioRead8_polls (p : Port) (s : State) : (ioRead8 p s).polls = s.polls := rfl
@[simp] theorem ioRead8_remaining (p : Port) (s : State) : (ioRead8 p s).remaining = s.remaining := rfl
@[simp] theorem ioRead8_i (p : Port) (s : State) : (ioRead8 p s).i = s.i := rfl
@[simp] theorem ioRead8_cmd (p : Port) (s : State) : (ioRead8 p s).cmd = s.cmd := rfl
@[simp] theorem ioRead8_res (p : Port) (s : State) : (ioRead8 p s).res = s.res := rfl
@[simp] theorem ioRead8_events (p : Port) (s : State) : (ioRead8 p s).events = s.events ++ [.ioRd p s.answer] := rfl
@[simp] theorem ioRead8_dmac (p : Port) (s : State) : (ioRead8 p s).dmac = s.dmac := rfl
@[simp] theorem ioRead8_oracle (p : Port) (s : State) : (ioRead8 p s).oracle = s.oracle.tail := rfl
@[simp] theorem ioRead8_reads (p : Port) (s : State) : (ioRead8 p s).reads = s.reads + 1 := rfl
@[simp] theorem ioRead8_schedule (p : Port) (s : State) : (ioRead8 p s).schedule = s.schedule := rfl
@[simp] theorem ioRead8_requests (p : Port) (s : State) : (ioRead8 p s).requests = s.requests := rfl

/-! ## IoWrite8 -/

@[simp] theorem ioWrite8_phase (p : Port) (v : Byte) (s : State) : (ioWrite8 p v s).phase = s.phase := rfl
@[simp] theorem ioWrite8_irqFlag (p : Port) (v : Byte) (s : State) : (ioWrite8 p v s).irqFlag = s.irqFlag := rfl
@[simp] theorem ioWrite8_fault (p : Port) (v : Byte) (s : State) : (ioWrite8 p v s).fault = s.fault := rfl
@[simp] theorem ioWrite8_op (p : Port) (v : Byte) (s : State) : (ioWrite8 p v s).op = s.op := rfl
@[simp] theorem ioWrite8_pos (p : Port) (v : Byte) (s : State) : (ioWrite8 p v s).pos = s.pos := rfl
@[simp] theorem ioWrite8_polls (p : Port) (v : Byte) (s : State) : (ioWrite8 p v s).polls = s.polls := rfl
@[simp] theorem ioWrite8_remaining (p : Port) (v : Byte) (s : State) : (ioWrite8 p v s).remaining = s.remaining := rfl
@[simp] theorem ioWrite8_i (p : Port) (v : Byte) (s : State) : (ioWrite8 p v s).i = s.i := rfl
@[simp] theorem ioWrite8_cmd (p : Port) (v : Byte) (s : State) : (ioWrite8 p v s).cmd = s.cmd := rfl
@[simp] theorem ioWrite8_res (p : Port) (v : Byte) (s : State) : (ioWrite8 p v s).res = s.res := rfl
@[simp] theorem ioWrite8_events (p : Port) (v : Byte) (s : State) : (ioWrite8 p v s).events = s.events ++ [.ioWr p v] := rfl
@[simp] theorem ioWrite8_dmac (p : Port) (v : Byte) (s : State) : (ioWrite8 p v s).dmac = s.dmac.write p v := rfl
@[simp] theorem ioWrite8_oracle (p : Port) (v : Byte) (s : State) : (ioWrite8 p v s).oracle = s.oracle := rfl
@[simp] theorem ioWrite8_reads (p : Port) (v : Byte) (s : State) : (ioWrite8 p v s).reads = s.reads := rfl
@[simp] theorem ioWrite8_schedule (p : Port) (v : Byte) (s : State) : (ioWrite8 p v s).schedule = s.schedule := rfl
@[simp] theorem ioWrite8_requests (p : Port) (v : Byte) (s : State) : (ioWrite8 p v s).requests = s.requests := rfl

/-! ## Tick -/

@[simp] theorem tick_phase (s : State) : (tick s).phase = s.phase := rfl
@[simp] theorem tick_irqFlag (s : State) : (tick s).irqFlag = s.irqFlag := rfl
@[simp] theorem tick_fault (s : State) : (tick s).fault = s.fault := rfl
@[simp] theorem tick_op (s : State) : (tick s).op = s.op := rfl
@[simp] theorem tick_pos (s : State) : (tick s).pos = s.pos := rfl
@[simp] theorem tick_polls (s : State) : (tick s).polls = s.polls := rfl
@[simp] theorem tick_remaining (s : State) : (tick s).remaining = s.remaining := rfl
@[simp] theorem tick_i (s : State) : (tick s).i = s.i := rfl
@[simp] theorem tick_cmd (s : State) : (tick s).cmd = s.cmd := rfl
@[simp] theorem tick_res (s : State) : (tick s).res = s.res := rfl
@[simp] theorem tick_events (s : State) : (tick s).events = s.events ++ [.tick] := rfl
@[simp] theorem tick_dmac (s : State) : (tick s).dmac = s.dmac := rfl
@[simp] theorem tick_oracle (s : State) : (tick s).oracle = s.oracle := rfl
@[simp] theorem tick_reads (s : State) : (tick s).reads = s.reads := rfl
@[simp] theorem tick_schedule (s : State) : (tick s).schedule = s.schedule := rfl
@[simp] theorem tick_requests (s : State) : (tick s).requests = s.requests := rfl

/-! ## Log -/

@[simp] theorem logWriteTimeout_phase (b : Byte) (s : State) : (logWriteTimeout b s).phase = s.phase := rfl
@[simp] theorem logWriteTimeout_irqFlag (b : Byte) (s : State) : (logWriteTimeout b s).irqFlag = s.irqFlag := rfl
@[simp] theorem logWriteTimeout_fault (b : Byte) (s : State) : (logWriteTimeout b s).fault = s.fault := rfl
@[simp] theorem logWriteTimeout_op (b : Byte) (s : State) : (logWriteTimeout b s).op = s.op := rfl
@[simp] theorem logWriteTimeout_pos (b : Byte) (s : State) : (logWriteTimeout b s).pos = s.pos := rfl
@[simp] theorem logWriteTimeout_polls (b : Byte) (s : State) : (logWriteTimeout b s).polls = s.polls := rfl
@[simp] theorem logWriteTimeout_remaining (b : Byte) (s : State) : (logWriteTimeout b s).remaining = s.remaining := rfl
@[simp] theorem logWriteTimeout_i (b : Byte) (s : State) : (logWriteTimeout b s).i = s.i := rfl
@[simp] theorem logWriteTimeout_cmd (b : Byte) (s : State) : (logWriteTimeout b s).cmd = s.cmd := rfl
@[simp] theorem logWriteTimeout_res (b : Byte) (s : State) : (logWriteTimeout b s).res = s.res := rfl
@[simp] theorem logWriteTimeout_events (b : Byte) (s : State) : (logWriteTimeout b s).events = s.events ++ [.log .writeTimeout b] := rfl
@[simp] theorem logWriteTimeout_dmac (b : Byte) (s : State) : (logWriteTimeout b s).dmac = s.dmac := rfl
@[simp] theorem logWriteTimeout_oracle (b : Byte) (s : State) : (logWriteTimeout b s).oracle = s.oracle := rfl
@[simp] theorem logWriteTimeout_reads (b : Byte) (s : State) : (logWriteTimeout b s).reads = s.reads := rfl
@[simp] theorem logWriteTimeout_schedule (b : Byte) (s : State) : (logWriteTimeout b s).schedule = s.schedule := rfl
@[simp] theorem logWriteTimeout_requests (b : Byte) (s : State) : (logWriteTimeout b s).requests = s.requests := rfl

/-! ## discard -/

@[simp] theorem discard_phase (s : State) : (s.discard).phase = s.phase := rfl
@[simp] theorem discard_irqFlag (s : State) : (s.discard).irqFlag = s.irqFlag := rfl
@[simp] theorem discard_fault (s : State) : (s.discard).fault = s.fault := rfl
@[simp] theorem discard_op (s : State) : (s.discard).op = none := rfl
@[simp] theorem discard_pos (s : State) : (s.discard).pos = .first := rfl
@[simp] theorem discard_polls (s : State) : (s.discard).polls = 0 := rfl
@[simp] theorem discard_remaining (s : State) : (s.discard).remaining = 0 := rfl
@[simp] theorem discard_i (s : State) : (s.discard).i = 0 := rfl
@[simp] theorem discard_cmd (s : State) : (s.discard).cmd = [] := rfl
@[simp] theorem discard_res (s : State) : (s.discard).res = rbZero := rfl
@[simp] theorem discard_events (s : State) : (s.discard).events = s.events := rfl
@[simp] theorem discard_dmac (s : State) : (s.discard).dmac = s.dmac := rfl
@[simp] theorem discard_oracle (s : State) : (s.discard).oracle = s.oracle := rfl
@[simp] theorem discard_reads (s : State) : (s.discard).reads = s.reads := rfl
@[simp] theorem discard_schedule (s : State) : (s.discard).schedule = s.schedule := rfl
@[simp] theorem discard_requests (s : State) : (s.discard).requests = s.requests := rfl

/-! ## Respond -/

@[simp] theorem respond_phase (st : Status) (rb : Bytes7) (rw0 rw1 : Word32) (s : State) : (respond st rb rw0 rw1 s).phase = .idle := rfl
@[simp] theorem respond_irqFlag (st : Status) (rb : Bytes7) (rw0 rw1 : Word32) (s : State) : (respond st rb rw0 rw1 s).irqFlag = s.irqFlag := rfl
@[simp] theorem respond_fault (st : Status) (rb : Bytes7) (rw0 rw1 : Word32) (s : State) : (respond st rb rw0 rw1 s).fault = s.fault := rfl
@[simp] theorem respond_op (st : Status) (rb : Bytes7) (rw0 rw1 : Word32) (s : State) : (respond st rb rw0 rw1 s).op = none := rfl
@[simp] theorem respond_pos (st : Status) (rb : Bytes7) (rw0 rw1 : Word32) (s : State) : (respond st rb rw0 rw1 s).pos = .first := rfl
@[simp] theorem respond_polls (st : Status) (rb : Bytes7) (rw0 rw1 : Word32) (s : State) : (respond st rb rw0 rw1 s).polls = 0 := rfl
@[simp] theorem respond_remaining (st : Status) (rb : Bytes7) (rw0 rw1 : Word32) (s : State) : (respond st rb rw0 rw1 s).remaining = 0 := rfl
@[simp] theorem respond_i (st : Status) (rb : Bytes7) (rw0 rw1 : Word32) (s : State) : (respond st rb rw0 rw1 s).i = 0 := rfl
@[simp] theorem respond_cmd (st : Status) (rb : Bytes7) (rw0 rw1 : Word32) (s : State) : (respond st rb rw0 rw1 s).cmd = [] := rfl
@[simp] theorem respond_res (st : Status) (rb : Bytes7) (rw0 rw1 : Word32) (s : State) : (respond st rb rw0 rw1 s).res = rbZero := rfl
@[simp] theorem respond_events (st : Status) (rb : Bytes7) (rw0 rw1 : Word32) (s : State) : (respond st rb rw0 rw1 s).events = s.events ++ [.resp ⟨st, rb, rw0, rw1, s.opcode⟩] := rfl
@[simp] theorem respond_dmac (st : Status) (rb : Bytes7) (rw0 rw1 : Word32) (s : State) : (respond st rb rw0 rw1 s).dmac = s.dmac := rfl
@[simp] theorem respond_oracle (st : Status) (rb : Bytes7) (rw0 rw1 : Word32) (s : State) : (respond st rb rw0 rw1 s).oracle = s.oracle := rfl
@[simp] theorem respond_reads (st : Status) (rb : Bytes7) (rw0 rw1 : Word32) (s : State) : (respond st rb rw0 rw1 s).reads = s.reads := rfl
@[simp] theorem respond_schedule (st : Status) (rb : Bytes7) (rw0 rw1 : Word32) (s : State) : (respond st rb rw0 rw1 s).schedule = s.schedule := rfl
@[simp] theorem respond_requests (st : Status) (rb : Bytes7) (rw0 rw1 : Word32) (s : State) : (respond st rb rw0 rw1 s).requests = s.requests := rfl

/-! ## Fault -/

@[simp] theorem raiseFault_phase (reason : FaultReason) (s : State) : (raiseFault reason s).phase = .faulted := rfl
@[simp] theorem raiseFault_irqFlag (reason : FaultReason) (s : State) : (raiseFault reason s).irqFlag = s.irqFlag := rfl
@[simp] theorem raiseFault_fault (reason : FaultReason) (s : State) : (raiseFault reason s).fault = reason := rfl
@[simp] theorem raiseFault_op (reason : FaultReason) (s : State) : (raiseFault reason s).op = none := rfl
@[simp] theorem raiseFault_pos (reason : FaultReason) (s : State) : (raiseFault reason s).pos = .first := rfl
@[simp] theorem raiseFault_polls (reason : FaultReason) (s : State) : (raiseFault reason s).polls = 0 := rfl
@[simp] theorem raiseFault_remaining (reason : FaultReason) (s : State) : (raiseFault reason s).remaining = 0 := rfl
@[simp] theorem raiseFault_i (reason : FaultReason) (s : State) : (raiseFault reason s).i = 0 := rfl
@[simp] theorem raiseFault_cmd (reason : FaultReason) (s : State) : (raiseFault reason s).cmd = [] := rfl
@[simp] theorem raiseFault_res (reason : FaultReason) (s : State) : (raiseFault reason s).res = rbZero := rfl
@[simp] theorem raiseFault_events (reason : FaultReason) (s : State) : (raiseFault reason s).events = s.events ++ [.fault reason] := rfl
@[simp] theorem raiseFault_dmac (reason : FaultReason) (s : State) : (raiseFault reason s).dmac = s.dmac := rfl
@[simp] theorem raiseFault_oracle (reason : FaultReason) (s : State) : (raiseFault reason s).oracle = s.oracle := rfl
@[simp] theorem raiseFault_reads (reason : FaultReason) (s : State) : (raiseFault reason s).reads = s.reads := rfl
@[simp] theorem raiseFault_schedule (reason : FaultReason) (s : State) : (raiseFault reason s).schedule = s.schedule := rfl
@[simp] theorem raiseFault_requests (reason : FaultReason) (s : State) : (raiseFault reason s).requests = s.requests := rfl

/-! ## RESET -/

@[simp] theorem resetBlock_phase (s : State) : (resetBlock s).phase = .idle := rfl
@[simp] theorem resetBlock_irqFlag (s : State) : (resetBlock s).irqFlag = Config.irqFlagAtReset := rfl
@[simp] theorem resetBlock_fault (s : State) : (resetBlock s).fault = .none := rfl
@[simp] theorem resetBlock_op (s : State) : (resetBlock s).op = none := rfl
@[simp] theorem resetBlock_pos (s : State) : (resetBlock s).pos = .first := rfl
@[simp] theorem resetBlock_polls (s : State) : (resetBlock s).polls = 0 := rfl
@[simp] theorem resetBlock_remaining (s : State) : (resetBlock s).remaining = 0 := rfl
@[simp] theorem resetBlock_i (s : State) : (resetBlock s).i = 0 := rfl
@[simp] theorem resetBlock_cmd (s : State) : (resetBlock s).cmd = [] := rfl
@[simp] theorem resetBlock_res (s : State) : (resetBlock s).res = rbZero := rfl
@[simp] theorem resetBlock_events (s : State) : (resetBlock s).events = s.events ++ [.reset] := rfl
@[simp] theorem resetBlock_dmac (s : State) : (resetBlock s).dmac = s.dmac := rfl
@[simp] theorem resetBlock_oracle (s : State) : (resetBlock s).oracle = s.oracle := rfl
@[simp] theorem resetBlock_reads (s : State) : (resetBlock s).reads = s.reads := rfl
@[simp] theorem resetBlock_schedule (s : State) : (resetBlock s).schedule = s.schedule := rfl
@[simp] theorem resetBlock_requests (s : State) : (resetBlock s).requests = s.requests := rfl

/-! ## issue -/

@[simp] theorem issue_phase (q : Request) (s : State) : (issue q s).phase = .busy := rfl
@[simp] theorem issue_irqFlag (q : Request) (s : State) : (issue q s).irqFlag = s.irqFlag := rfl
@[simp] theorem issue_fault (q : Request) (s : State) : (issue q s).fault = s.fault := rfl
@[simp] theorem issue_op (q : Request) (s : State) : (issue q s).op = some q := rfl
@[simp] theorem issue_pos (q : Request) (s : State) : (issue q s).pos = s.pos := rfl
@[simp] theorem issue_polls (q : Request) (s : State) : (issue q s).polls = s.polls := rfl
@[simp] theorem issue_remaining (q : Request) (s : State) : (issue q s).remaining = s.remaining := rfl
@[simp] theorem issue_i (q : Request) (s : State) : (issue q s).i = s.i := rfl
@[simp] theorem issue_cmd (q : Request) (s : State) : (issue q s).cmd = s.cmd := rfl
@[simp] theorem issue_res (q : Request) (s : State) : (issue q s).res = s.res := rfl
@[simp] theorem issue_events (q : Request) (s : State) : (issue q s).events = s.events := rfl
@[simp] theorem issue_dmac (q : Request) (s : State) : (issue q s).dmac = s.dmac := rfl
@[simp] theorem issue_oracle (q : Request) (s : State) : (issue q s).oracle = s.oracle := rfl
@[simp] theorem issue_reads (q : Request) (s : State) : (issue q s).reads = s.reads := rfl
@[simp] theorem issue_schedule (q : Request) (s : State) : (issue q s).schedule = s.schedule := rfl
@[simp] theorem issue_requests (q : Request) (s : State) : (issue q s).requests = s.requests := rfl

/-! ## takeTurn -/

@[simp] theorem takeTurn_phase (s : State) : (s.takeTurn).phase = s.phase := rfl
@[simp] theorem takeTurn_irqFlag (s : State) : (s.takeTurn).irqFlag = s.irqFlag := rfl
@[simp] theorem takeTurn_fault (s : State) : (s.takeTurn).fault = s.fault := rfl
@[simp] theorem takeTurn_op (s : State) : (s.takeTurn).op = s.op := rfl
@[simp] theorem takeTurn_pos (s : State) : (s.takeTurn).pos = s.pos := rfl
@[simp] theorem takeTurn_polls (s : State) : (s.takeTurn).polls = s.polls := rfl
@[simp] theorem takeTurn_remaining (s : State) : (s.takeTurn).remaining = s.remaining := rfl
@[simp] theorem takeTurn_i (s : State) : (s.takeTurn).i = s.i := rfl
@[simp] theorem takeTurn_cmd (s : State) : (s.takeTurn).cmd = s.cmd := rfl
@[simp] theorem takeTurn_res (s : State) : (s.takeTurn).res = s.res := rfl
@[simp] theorem takeTurn_events (s : State) : (s.takeTurn).events = s.events := rfl
@[simp] theorem takeTurn_dmac (s : State) : (s.takeTurn).dmac = s.dmac := rfl
@[simp] theorem takeTurn_oracle (s : State) : (s.takeTurn).oracle = s.oracle := rfl
@[simp] theorem takeTurn_reads (s : State) : (s.takeTurn).reads = s.reads := rfl
@[simp] theorem takeTurn_schedule (s : State) : (s.takeTurn).schedule = s.schedule.tail := rfl
@[simp] theorem takeTurn_requests (s : State) : (s.takeTurn).requests = s.requests := rfl

/-! ## What the updates leave of the derived reads -/

@[simp] theorem opcode_of_op (s : State) (q : Request) (h : s.op = some q) : s.opcode = q.extractLsb' 0 8 := by
  simp [State.opcode, h, fieldsOf]

@[simp] theorem takeTurn_opcode (s : State) : s.takeTurn.opcode = s.opcode := rfl
@[simp] theorem takeTurn_answer (s : State) : s.takeTurn.answer = s.answer := rfl
@[simp] theorem ioRead8_opcode (p : Port) (s : State) : (ioRead8 p s).opcode = s.opcode := rfl
@[simp] theorem ioWrite8_opcode (p : Port) (v : Byte) (s : State) : (ioWrite8 p v s).opcode = s.opcode := rfl
@[simp] theorem logWriteTimeout_opcode (b : Byte) (s : State) : (logWriteTimeout b s).opcode = s.opcode := rfl

end Sys2Proof.Machine
end

