-- ==== Sys2Proof/Laws/Ops.lean ====
section
/-!
SUPPORT. One lemma for each shared operation of Machine/Ops.lean: everything it can do, said once.
-/

namespace Sys2Proof.Machine

/-! ## The ends of an operation -/

/-- Respond is the end of an operation with no event before the response. -/
theorem respond_eq_ended (st : Status) (rb : Bytes7) (rw0 rw1 : Word32) (s : State) :
    respond st rb rw0 rw1 s = ended [] ⟨st, rb, rw0, rw1, s.opcode⟩ s := by
  simp [respond, ended, State.discard, State.record, rbZero]

theorem raiseFault_eq_faultedWith (r : FaultReason) (s : State) : raiseFault r s = faultedWith r s := rfl

theorem refuseRequest_eq_ended (s : State) :
    refuseRequest s = ended [] ⟨.illegalRequest, rbZero, 0, 0, s.opcode⟩ s := respond_eq_ended ..

theorem rbZero_eq : rbZero = #v[0, 0, 0, 0, 0, 0, 0] := rfl

/-! ## The IRQ agent -/

/-- IRQ_SIGNAL sets the latch and records one event, and that is all it does. -/
theorem irqSignal_eq (s : State) :
    irqSignal s = { s with
      irqFlag := true, events := s.events ++ [if s.irqFlag then .irqCoalesced else .irqLatched] } := by
  obtain ⟨_, f, _⟩ := s
  cases f <;> rfl

/-! ## The handshake -/

/-- Every outcome of one step of a handshake. -/
theorem handshake_cases (want : Ready) (at_ : Handshake → Pos) (access expired : State → State) (h : Handshake)
    (s : State) {P : State → Prop}
    (ready : h = .poll → msrReady want s.answer = true → P { ioRead8 msrPort s with pos := at_ .access })
    (out : h = .poll → msrReady want s.answer = false → s.polls = Config.pollLimit → P (expired (ioRead8 msrPort s)))
    (again : h = .poll → msrReady want s.answer = false → s.polls ≠ Config.pollLimit →
      P { ioRead8 msrPort s with pos := at_ .tick })
    (ticked : h = .tick → P { tick s with polls := s.polls + 1, pos := at_ .poll })
    (accessed : h = .access → P (access s)) : P (handshake want at_ access expired h s) := by
  unfold handshake
  cases h
  · dsimp only
    split
    · exact ready rfl ‹_›
    · split
      · exact out rfl (Bool.eq_false_iff.mpr ‹¬ msrReady _ _ = _›) ‹_›
      · exact again rfl (Bool.eq_false_iff.mpr ‹¬ msrReady _ _ = _›) ‹_›
  · exact ticked rfl
  · exact accessed rfl

/-- Every outcome of one step of an exchange: a step of SEND or of READN, entered or begun. -/
theorem exchange_cases (cmd : List Byte) (n : Nat) (done : Bytes7 → Status) (s : State) {P : State → Prop}
    (sending : ∀ h s', s.pos = .send h ∧ s' = s ∨ cmd ≠ [] ∧ h = .poll ∧ s' = startSend cmd s →
      P (sendStep cmd n h s'))
    (receiving : ∀ h s', s.pos = .recv h ∧ s' = s ∨ cmd = [] ∧ h = .poll ∧ s' = startRecv n s →
      P (recvStep cmd.length n done h s')) : P (exchange cmd n done s) := by
  unfold exchange
  split
  · exact sending _ _ (.inl ⟨‹_›, rfl⟩)
  · exact receiving _ _ (.inl ⟨‹_›, rfl⟩)
  · cases cmd with
    | nil => exact receiving _ _ (.inr ⟨rfl, rfl, rfl⟩)
    | cons a b => exact sending _ _ (.inr ⟨by simp, rfl, rfl⟩)

/-! ## The DMA channel -/

/-- The FIFO port is no port of the DMA controller. -/
@[simp] theorem dmac_write_fifo (d : Dmac) (v : Byte) : d.write fifoPort v = d := by
  simp [Dmac.write, fifoPort, Config.fdcBase, dmaMaskPort, dmaFlipFlopPort, dmaAddrPort, dmaPagePort, dmaCountPort,
    dmaModePort]

/-- Two writes through the flip-flop, low byte first, load the whole register whatever it held. -/
theorem pairWrite_pair (low high : Byte) (r : BitVec 16) :
    pairWrite true high (pairWrite false low r) = high ++ low := by
  simp only [pairWrite, if_true, Bool.false_eq_true, if_false]
  congr 1
  apply BitVec.eq_of_getLsbD_eq
  intro i hi
  simp only [BitVec.getLsbD_extractLsb', hi, decide_true, Bool.true_and]
  rw [BitVec.getLsbD_append]
  simp [hi]

/-! ## The instructions that use SEND and READN -/

/-- Every instruction is one of these kinds; the last is no well-formed instruction. -/
theorem isExchange_or (i : Instr) :
    isExchange i = true ∨ (∃ t, i = .irqWait t) ∨ (∃ b, i = .ccWriteByte b) ∨ (∃ lba, i = .geoLbaToChs lba) ∨
      (∃ c h s, i = .geoChsToLba c h s) ∨ (∃ a c d, i = .dmaProgram a c d) ∨ (∃ a b c, i = .classify a b c) ∨
      i = .seqReadResult 0 := by
  cases i with
  | seqReadResult n =>
    by_cases h : n = 0
    · simp [h]
    · left
      have : n.toNat ≠ 0 := fun h2 => h (BitVec.eq_of_toNat_eq (by simpa using h2))
      simp [isExchange, commandPhase, commandOf, resultCount, this]
  | irqWait t => simp
  | ccWriteByte t => simp
  | geoLbaToChs l => simp
  | geoChsToLba c h s => simp
  | dmaProgram a c d => simp
  | classify a b c => simp
  | _ =>
    left
    simp [isExchange, commandPhase, commandOf, resultCount, encode, Instr.requestWord, Instr.fields,
      Instr.commandBytes]

/-- The step of an instruction that uses SEND or READN is one step of the exchange of its bytes. -/
theorem exec_exchange (i : Instr) (h : isExchange i = true) (s : State) :
    exec i s = .next (exchange (commandPhase i) (resultCount i) (exchangeStatus i) s) := by
  have hok : ∀ i, i ≠ .seqVersion → i ≠ .fdcVersion → exchangeStatus i = alwaysOk := by
    intro i h1 h2; funext rb; simp [exchangeStatus, alwaysOk, h1, h2]
  have hv : exchangeStatus .seqVersion = versionStatus ∧ exchangeStatus .fdcVersion = versionStatus := by
    constructor <;> (funext rb; simp [exchangeStatus, versionStatus])
  cases i
  case seqVersion => rw [hv.1]; rfl
  case fdcVersion => rw [hv.2]; rfl
  all_goals first
    | (simp [isExchange, commandPhase, commandOf, resultCount] at h; done)
    | (rw [hok _ (by simp) (by simp)]; rfl)

/-- No instruction stops: every meaning ends in a next state. -/
theorem exec_next (i : Instr) (s : State) : ∃ t, exec i s = .next t := by
  cases i <;> exact ⟨_, rfl⟩

end Sys2Proof.Machine
end

