-- ==== Sys2Proof/Laws/PerInstr.lean ====
section
/-!
SUPPORT. What every encoding shares: its first byte is the opcode of its row of the opcode table (R82, R90), and its
length is that of its format (R84, R93, R94, R101).
-/

namespace Sys2Proof.Laws

/-- The opcode of an instruction's row, and how many bytes its encoding has. -/
def OpcodeByte.row : Instr → Byte × Nat
  | .irqWait _ => (0x01, 16)
  | .ccWriteByte _ => (0x10, 16)
  | .ccReadByte => (0x11, 16)
  | .ccSenseInterrupt => (0x12, 16)
  | .seqSeek _ _ _ => (0x20, 16)
  | .seqRecalibrate _ => (0x21, 16)
  | .seqReadData _ _ _ _ => (0x22, 16)
  | .seqWriteData _ _ _ _ => (0x23, 16)
  | .seqVersion => (0x24, 16)
  | .seqConfigure _ _ _ _ _ => (0x25, 16)
  | .seqLock => (0x26, 16)
  | .seqReadResult _ => (0x27, 16)
  | .geoLbaToChs _ => (0x30, 16)
  | .geoChsToLba _ _ _ => (0x31, 16)
  | .dmaProgram _ _ _ => (0x40, 16)
  | .classify _ _ _ => (0x50, 16)
  | .fdcReadData _ _ _ _ _ _ _ _ => (0xE6, 9)
  | .fdcWriteData _ _ _ _ _ _ _ _ => (0xE5, 9)
  | .fdcSeek _ _ => (0x0F, 3)
  | .fdcRecalibrate _ => (0x07, 2)
  | .fdcSenseInterrupt => (0x08, 1)
  | .fdcVersion => (0x10, 1)
  | .fdcConfigure _ _ _ => (0x13, 4)
  | .fdcLock => (0x94, 1)

/-- The encoding begins with the row's opcode and has the row's length. -/
def OpcodeByte.Statement (i : Instr) : Prop :=
  (encode i).head? = some (OpcodeByte.row i).1 ∧ (encode i).length = (OpcodeByte.row i).2

/-- A request's first byte is its OP, and it has sixteen bytes. -/
theorem OpcodeByte.of_fields (i : Instr) (w : Fields) (h : i.fields = some w) (hr : OpcodeByte.row i = (w.op, 16)) :
    OpcodeByte.Statement i := by
  have hop : BitVec.ofNat 8 w.word.toNat = w.op := by
    have := congrArg Fields.op (fieldsOf_word w)
    rw [← this]
    apply BitVec.eq_of_toNat_eq
    simp [fieldsOf]
  have he : encode i = requestBytes w.word := by simp [encode, Instr.requestWord, h]
  constructor
  · rw [he, hr, ← hop]; rfl
  · rw [he, hr]; exact leBytes_length 16 _

namespace OpcodeByte

theorem irqWait (t : BitVec 16) : Statement (.irqWait t) := of_fields _ _ rfl rfl
theorem ccWriteByte (b : Byte) : Statement (.ccWriteByte b) := of_fields _ _ rfl rfl
theorem ccReadByte : Statement .ccReadByte := of_fields _ _ rfl rfl
theorem ccSenseInterrupt : Statement .ccSenseInterrupt := of_fields _ _ rfl rfl
theorem seqSeek (drive : BitVec 2) (head : BitVec 1) (cyl : Byte) : Statement (.seqSeek drive head cyl) :=
  of_fields _ _ rfl rfl
theorem seqRecalibrate (drive : BitVec 2) : Statement (.seqRecalibrate drive) := of_fields _ _ rfl rfl
theorem seqReadData (drive : BitVec 2) (head : BitVec 1) (cyl sec : Byte) :
    Statement (.seqReadData drive head cyl sec) := of_fields _ _ rfl rfl
theorem seqWriteData (drive : BitVec 2) (head : BitVec 1) (cyl sec : Byte) :
    Statement (.seqWriteData drive head cyl sec) := of_fields _ _ rfl rfl
theorem seqVersion : Statement .seqVersion := of_fields _ _ rfl rfl
theorem seqConfigure (eis efifo poll : BitVec 1) (thr : BitVec 4) (pretrk : Byte) :
    Statement (.seqConfigure eis efifo poll thr pretrk) := of_fields _ _ rfl rfl
theorem seqLock : Statement .seqLock := of_fields _ _ rfl rfl
theorem seqReadResult (n : Byte) : Statement (.seqReadResult n) := of_fields _ _ rfl rfl
theorem geoLbaToChs (lba : Word32) : Statement (.geoLbaToChs lba) := of_fields _ _ rfl rfl
theorem geoChsToLba (cyl : Word32) (head sec : Byte) : Statement (.geoChsToLba cyl head sec) := of_fields _ _ rfl rfl
theorem dmaProgram (addr count : Word32) (dir : Direction) : Statement (.dmaProgram addr count dir) :=
  of_fields _ _ rfl rfl
theorem classify (st0 st1 st2 : Byte) : Statement (.classify st0 st1 st2) := of_fields _ _ rfl rfl
theorem fdcReadData (dh c h r n eot gpl dtl : Byte) : Statement (.fdcReadData dh c h r n eot gpl dtl) := ⟨rfl, rfl⟩
theorem fdcWriteData (dh c h r n eot gpl dtl : Byte) : Statement (.fdcWriteData dh c h r n eot gpl dtl) := ⟨rfl, rfl⟩
theorem fdcSeek (dh ncn : Byte) : Statement (.fdcSeek dh ncn) := ⟨rfl, rfl⟩
theorem fdcRecalibrate (dh : Byte) : Statement (.fdcRecalibrate dh) := ⟨rfl, rfl⟩
theorem fdcSenseInterrupt : Statement .fdcSenseInterrupt := ⟨rfl, rfl⟩
theorem fdcVersion : Statement .fdcVersion := ⟨rfl, rfl⟩
theorem fdcConfigure (zero cfg pretrk : Byte) : Statement (.fdcConfigure zero cfg pretrk) := ⟨rfl, rfl⟩
theorem fdcLock : Statement .fdcLock := ⟨rfl, rfl⟩

end OpcodeByte

end Sys2Proof.Laws
end

