-- ==== Sys2Proof/Laws/Step.lean ====
section
/-!
SUPPORT. What one step can be (the inversion lemma of `step`), what `fetch` gives, and runs of several steps.
-/

namespace Sys2Proof.Machine

/-! ## Fetching -/

theorem fetch_of_request {s : State} {q : Request} {i : Instr} (ho : s.op = some q) (hp : ∀ h, s.pos ≠ .send h)
    (hd : decodeRequest q = .ok i) : fetch s = .run i := by
  unfold fetch
  cases hps : s.pos <;> simp [ho, hd]
  exact absurd hps (hp _)

theorem fetch_of_illegal {s : State} {q : Request} {e : DecodeError} (ho : s.op = some q)
    (hp : ∀ h, s.pos ≠ .send h) (hd : decodeRequest q = .error e) : fetch s = .illegal := by
  unfold fetch
  cases hps : s.pos <;> simp [ho, hd]
  exact absurd hps (hp _)

theorem fetch_of_command {s : State} {q : Request} {h : Handshake} {c : Instr} (ho : s.op = some q)
    (hp : s.pos = .send h) (hd : decodeCommand s.cmd = .ok (c, [])) : fetch s = .run c := by
  simp [fetch, ho, hp, hd]

/-! ## Everything one step can be -/

theorem step_cases {s t : State} (h : step s = .next t) :
    (s.turn = .irq ∧ t = irqSignal s.takeTurn) ∨
    (s.turn = .reset ∧ t = resetBlock s.takeTurn) ∨
    (s.turn = .block ∧ s.phase = .idle ∧ ∃ q qs, s.requests = q :: qs ∧ t = issue q { s.takeTurn with requests := qs }) ∨
    (s.turn = .block ∧ s.phase = .busy ∧ ∃ q, s.op = some q ∧ (∀ h, s.pos ≠ .send h) ∧
      (∃ e, decodeRequest q = .error e) ∧ t = refuseRequest s.takeTurn) ∨
    (s.turn = .block ∧ s.phase = .busy ∧ ∃ q i, s.op = some q ∧ (∀ h, s.pos ≠ .send h) ∧ decodeRequest q = .ok i ∧
      exec i s.takeTurn = .next t) ∨
    (s.turn = .block ∧ s.phase = .busy ∧ ∃ q h c, s.op = some q ∧ s.pos = .send h ∧
      decodeCommand s.cmd = .ok (c, []) ∧ exec c s.takeTurn = .next t) := by
  unfold step at h
  split at h
  · left; refine ⟨‹_›, by injection h with h; exact h.symm⟩
  · right; left; refine ⟨‹_›, by injection h with h; exact h.symm⟩
  · right; right
    have ht : s.turn = .block := ‹_›
    unfold blockTurn at h
    split at h
    · left
      refine ⟨ht, ‹_›, ?_⟩
      unfold hostTurn at h
      split at h
      · exact ⟨_, _, ‹_›, by injection h with h; exact h.symm⟩
      · simp at h
    · right
      have hp : s.phase = .busy := ‹_›
      split at h
      · rename_i i hf
        right
        unfold fetch at hf
        split at hf
        · simp at hf
        · rename_i q ho
          split at hf
          · rename_i hh hps
            right
            refine ⟨ht, hp, q, hh, i, ho, hps, ?_, h⟩
            split at hf
            · rename_i c hc
              simp only [Fetched.run.injEq] at hf
              subst hf; exact hc
            · simp at hf
          · rename_i hps
            left
            refine ⟨ht, hp, q, i, ho, hps, ?_, h⟩
            split at hf
            · simp only [Fetched.run.injEq] at hf
              subst hf; assumption
            · simp at hf
      · rename_i hf
        left
        unfold fetch at hf
        split at hf
        · simp at hf
        · rename_i q ho
          split at hf
          · split at hf <;> simp at hf
          · rename_i hps
            split at hf
            · simp at hf
            · refine ⟨ht, hp, q, ho, hps, ⟨_, ‹_›⟩, by injection h with h; exact h.symm⟩
      · simp at h
    · simp at h

/-! ## Runs -/

@[simp] theorem run_zero (s : State) : run 0 s = .next s := rfl

theorem run_succ {s t : State} (k : Nat) (h : step s = .next t) : run (k + 1) s = run k t := by
  show Host.Core.run core (k + 1) s = _
  have : core.step s = Host.Outcome.next t := h
  simp only [Host.Core.run, this]

theorem run_add (a b : Nat) : ∀ s u : State, run a s = .next u → run (a + b) s = run b u := by
  induction a with
  | zero => intro s u h; cases h; rw [Nat.zero_add]
  | succ a ih =>
    intro s u h
    cases hs : step s with
    | next x => rw [run_succ _ hs] at h; rw [show a + 1 + b = (a + b) + 1 by omega, run_succ _ hs]; exact ih _ _ h
    | fault r =>
      exfalso
      have : core.step s = Host.Outcome.fault r := hs
      simp [run, Host.Core.run, this] at h
    | refused r =>
      exfalso
      have : core.step s = Host.Outcome.refused r := hs
      simp [run, Host.Core.run, this] at h

end Sys2Proof.Machine
end

