-- ==== Sys2Proof/Tests/Slice0.lean ====
section
/-!
SUPPORT. Tests. Every expected value comes from the spec: the encodings of 30_encoding.md and the vectors of
95_test_vectors.md, whose names (I1, H2, S4, …) stand in the comments. The witnesses at the end meet the hypotheses of
the obligations.
-/

namespace Sys2Proof.Tests

open Sys2Proof.Machine

/-! ## States to test on -/

/-- BUSY with this request, at this statement. -/
def busyAt (q : Request) (pos : Pos) : State := { State.reset with phase := .busy, op := some q, pos := pos }

/-- Inside the exchange of this request: the byte index, the Ticks spent and the oracle's next answers. -/
def exchanging (q : Request) (pos : Pos) (cmd : List Byte) (i polls : Nat) (oracle : List Byte) : State :=
  { busyAt q pos with cmd := cmd, i := i, polls := polls, oracle := oracle }

/-- One step, or the state itself when the machine stops. -/
def after (s : State) : State :=
  match step s with
  | .next t => t
  | .fault _ => s
  | .refused _ => s

/-! ## Ill-formed instructions are refused -/

theorem test_wf_readResult_count :
    (Instr.seqReadResult 0).wellFormed = false ∧ (Instr.seqReadResult 8).wellFormed = false ∧
    (Instr.seqReadResult 1).wellFormed = true ∧ (Instr.seqReadResult 7).wellFormed = true := by decide

theorem test_wf_readData :
    (Instr.fdcReadData 0x04 5 1 3 2 18 0x1B 0xFF).wellFormed = true ∧
    (Instr.fdcReadData 0x0C 5 1 3 2 18 0x1B 0xFF).wellFormed = false ∧
    (Instr.fdcReadData 0x04 5 0 3 2 18 0x1B 0xFF).wellFormed = false ∧
    (Instr.fdcReadData 0x04 5 1 3 3 18 0x1B 0xFF).wellFormed = false ∧
    (Instr.fdcReadData 0x04 5 1 3 2 17 0x1B 0xFF).wellFormed = false ∧
    (Instr.fdcReadData 0x04 5 1 3 2 18 0x1A 0xFF).wellFormed = false ∧
    (Instr.fdcReadData 0x04 5 1 3 2 18 0x1B 0xFE).wellFormed = false := by decide

theorem test_wf_writeData :
    (Instr.fdcWriteData 0x01 79 0 18 2 18 0x1B 0xFF).wellFormed = true ∧
    (Instr.fdcWriteData 0x81 79 0 18 2 18 0x1B 0xFF).wellFormed = false ∧
    (Instr.fdcWriteData 0x01 79 1 18 2 18 0x1B 0xFF).wellFormed = false := by decide

theorem test_wf_shortPhases :
    (Instr.fdcSeek 0x08 10).wellFormed = false ∧ (Instr.fdcRecalibrate 0x08).wellFormed = false ∧
    (Instr.fdcRecalibrate 0x04).wellFormed = false ∧ (Instr.fdcConfigure 1 0x5F 0).wellFormed = false ∧
    (Instr.fdcConfigure 0 0xDF 0).wellFormed = false := by decide

/-! ## Decoding: the words of R122 and the bytes of R90 to R95 -/

theorem test_decode_irqWait : decodeRequest 0x01F40001 = .ok (.irqWait 500) := by decide
theorem test_decode_ccWriteByte : decodeRequest 0x00000810 = .ok (.ccWriteByte 0x08) := by decide
theorem test_decode_ccReadByte : decodeRequest 0x00000011 = .ok .ccReadByte := by decide
theorem test_decode_ccSenseInterrupt : decodeRequest 0x00000012 = .ok .ccSenseInterrupt := by decide
theorem test_decode_seqSeek : decodeRequest 0x000A0020 = .ok (.seqSeek 0 0 10) := by decide
theorem test_decode_seqRecalibrate : decodeRequest 0x00000221 = .ok (.seqRecalibrate 2) := by decide
theorem test_decode_seqReadData : decodeRequest 0x03050422 = .ok (.seqReadData 0 1 5 3) := by decide
theorem test_decode_seqWriteData : decodeRequest 0x124F0123 = .ok (.seqWriteData 1 0 79 18) := by decide
theorem test_decode_seqVersion : decodeRequest 0x00000024 = .ok .seqVersion := by decide
theorem test_decode_seqConfigure : decodeRequest 0x00005F25 = .ok (.seqConfigure 1 0 1 15 0) := by decide
theorem test_decode_seqLock : decodeRequest 0x00000026 = .ok .seqLock := by decide
theorem test_decode_seqReadResult : decodeRequest 0x00000727 = .ok (.seqReadResult 7) := by decide
theorem test_decode_geoLbaToChs : decodeRequest 0x0000002400000030 = .ok (.geoLbaToChs 36) := by decide
theorem test_decode_geoChsToLba : decodeRequest 0x0000000100010031 = .ok (.geoChsToLba 1 0 1) := by decide
theorem test_decode_dmaProgram :
    decodeRequest 0x000024000001000000000040 = .ok (.dmaProgram 0x10000 9216 .read) ∧
    decodeRequest 0x000024000001000000000140 = .ok (.dmaProgram 0x10000 9216 .write) := by decide
theorem test_decode_classify : decodeRequest 0x00024050 = .ok (.classify 0x40 0x02 0x00) := by decide

theorem test_decode_fdcReadData :
    decodeCommand [0xE6, 0x04, 0x05, 0x01, 0x03, 0x02, 0x12, 0x1B, 0xFF] =
      .ok (.fdcReadData 0x04 5 1 3 2 18 0x1B 0xFF, []) := by decide
theorem test_decode_fdcWriteData :
    decodeCommand [0xE5, 0x01, 0x4F, 0x00, 0x12, 0x02, 0x12, 0x1B, 0xFF] =
      .ok (.fdcWriteData 0x01 79 0 18 2 18 0x1B 0xFF, []) := by decide
theorem test_decode_fdcSeek : decodeCommand [0x0F, 0x07, 0x4F] = .ok (.fdcSeek 0x07 79, []) := by decide
theorem test_decode_fdcRecalibrate : decodeCommand [0x07, 0x02] = .ok (.fdcRecalibrate 2, []) := by decide
theorem test_decode_fdcSenseInterrupt : decodeCommand [0x08] = .ok (.fdcSenseInterrupt, []) := by decide
theorem test_decode_fdcVersion : decodeCommand [0x10] = .ok (.fdcVersion, []) := by decide
theorem test_decode_fdcConfigure :
    decodeCommand [0x13, 0x00, 0x5F, 0x00] = .ok (.fdcConfigure 0 0x5F 0, []) := by decide
theorem test_decode_fdcLock : decodeCommand [0x94] = .ok (.fdcLock, []) := by decide

/-- The serialised bytes of `seq.read 0, 1, 5, 3` (R122). -/
theorem test_decode_bytes :
    decode .req128 [0x22, 4, 5, 3, 0, 0, 0, 0, 0, 0, 0, 0, 0, 0, 0, 0] = .ok (.seqReadData 0 1 5 3, []) := by decide

/-- The illegal words of 95_test_vectors.md section 2.1. -/
theorem test_illegal_words :
    decodeRequest 0x00000000 = .error (.reservedOpcode 0) ∧
    decodeRequest 0x00000002 = .error (.reservedOpcode 2) ∧
    decodeRequest 0x00000027 = .error (.resultCount 0) ∧
    decodeRequest 0x00000827 = .error (.resultCount 8) := by decide
theorem test_illegal_mustBeZero :
    decodeRequest 0x000A0820 = .error .mustBeZero ∧ decodeRequest 0x010A0020 = .error .mustBeZero ∧
    decodeRequest 0x00000421 = .error .mustBeZero ∧ decodeRequest 0x0000DF25 = .error .mustBeZero ∧
    decodeRequest 0x0000000101010031 = .error .mustBeZero ∧
    decodeRequest 0x000002000001000000000240 = .error .mustBeZero ∧
    decodeRequest 0x0000000100000011 = .error .mustBeZero ∧
    decodeRequest 0x00000001000000000000000000000050 = .error .mustBeZero := by decide

theorem test_command_rejects :
    decodeCommand [0x03, 0, 0] = .error (.notACommand 3) ∧ decodeCommand [0x0F, 0x00] = .error .shortCommand ∧
    decodeCommand [] = .error .shortCommand ∧ decode .req128 [0x24] = .error .shortRequest := by decide

/-! ## The opcode table's words, and the fetch -/

theorem test_tableWord :
    decodeTableWord 128 0x01 = some (.irqWait 0) ∧ decodeTableWord 128 0x40 = some (.dmaProgram 0 0 .read) ∧
    decodeTableWord 8 0xE6 = some (.fdcReadData 0 0 0 0 0 0 0 0) ∧ decodeTableWord 8 0x94 = some .fdcLock ∧
    decodeTableWord 128 0x27 = none ∧ decodeTableWord 8 0x03 = none := by decide

theorem test_withFetchWord_request :
    fetch (State.reset.withFetchWord 128 0x124F0123).takeTurn = .run (.seqWriteData 1 0 79 18) := by decide

theorem test_withFetchWord_command :
    fetch (State.reset.withFetchWord 8 0x0F).takeTurn = .run (.fdcSeek 0 0) := by decide

/-- P1: a request comes to run in two steps, HOST's issue and the first SEQ step. -/
theorem test_from_reset :
    (after (after { State.reset with requests := [0x00024050] })).events =
      [.resp ⟨.ok, #v[6, 0, 0, 0, 0, 0, 0], 0, 0, 0x50⟩] := by decide

/-! ## The assembly notation (R120, R121) -/

set_option maxRecDepth 4000 in
theorem test_assemble_operands :
    assembleText "seq.read 0, 1, 5, 3 ; a read".toList = some [0x03050422] := by decide
set_option maxRecDepth 4000 in
theorem test_assemble_lines :
    assembleText "irq.wait\n\ncc.drain4".toList = some [0x01F40001, 0x12, 0x12, 0x12, 0x12] := by decide

/-! ## One step of each operation -/

/-- I1. -/
theorem test_irqWait_timeout :
    (after (busyAt 0x00000001 .first)).events = [.resp ⟨.timeout, #v[0, 0, 0, 0, 0, 0, 0], 0, 0, 0x01⟩] := by decide
/-- I2: the check that returns clears the latch. -/
theorem test_irqWait_arrived :
    let t := after { busyAt 0x00000001 .first with irqFlag := true }
    t.irqFlag = false ∧ t.events = [.resp ⟨.ok, #v[1, 0, 0, 0, 0, 0, 0], 0, 0, 0x01⟩] := by decide

/-- H2: an MSR answer of 0x10 is not ready, and a Tick is next. -/
theorem test_ccWriteByte_notReady :
    let t := after { busyAt 0x00000810 .first with oracle := [0x10] }
    t.events = [.ioRd 0x3F4 0x10] ∧ t.pos = .put .tick := by decide
/-- H6: bit 4 of the MSR is ignored. -/
theorem test_ccWriteByte_bit4 :
    (after (after { busyAt 0x00000810 .first with oracle := [0x90] })).events =
      [.ioRd 0x3F4 0x90, .ioWr 0x3F5 0x08, .resp ⟨.ok, #v[0, 0, 0, 0, 0, 0, 0], 1, 0, 0x10⟩] := by decide

/-- H7. -/
theorem test_ccReadByte_value :
    (after (exchanging 0x00000011 (.recv .access) [] 0 0 [0x20])).events =
      [.ioRd 0x3F5 0x20, .resp ⟨.ok, #v[0x20, 0, 0, 0, 0, 0, 0], 0, 1, 0x11⟩] := by decide
/-- H8: the last MSR read of a read handshake that expires; no Log. -/
theorem test_ccReadByte_timeout :
    (after { exchanging 0x00000011 (.recv .poll) [] 0 500 [0x80] with
      res := #v[Config.readSentinel, 0, 0, 0, 0, 0, 0] }).events =
      [.ioRd 0x3F4 0x80, .resp ⟨.timeout, #v[Config.readSentinel, 0, 0, 0, 0, 0, 0], 0, 0, 0x11⟩] := rfl

/-- H11: the last step. -/
theorem test_ccSenseInterrupt_value :
    (after { exchanging 0x00000012 (.recv .access) [0x08] 1 0 [0x0A] with res := #v[0x20, 0, 0, 0, 0, 0, 0] }).events =
      [.ioRd 0x3F5 0x0A, .resp ⟨.ok, #v[0x20, 0x0A, 0, 0, 0, 0, 0], 1, 2, 0x12⟩] := by decide
/-- H13: the last MSR read of the write handshake. -/
theorem test_ccSenseInterrupt_timeout :
    (after (exchanging 0x00000012 (.send .poll) [0x08] 0 500 [0x00])).events =
      [.ioRd 0x3F4 0x00, .log .writeTimeout 0x08,
        .resp ⟨.timeout, #v[Config.readSentinel, Config.readSentinel, 0, 0, 0, 0, 0], 0, 0, 0x12⟩] := rfl

/-- S2: `seq.seek 3, 1, 79` sends 0F 07 4F. -/
theorem test_seqSeek_last :
    (after (exchanging 0x004F0720 (.send .access) [0x0F, 0x07, 0x4F] 2 0 [])).events =
      [.ioWr 0x3F5 0x4F, .resp ⟨.ok, #v[0, 0, 0, 0, 0, 0, 0], 3, 0, 0x20⟩] := by decide
theorem test_seqSeek_first :
    (after { busyAt 0x004F0720 .first with oracle := [0x80] }).cmd = [0x0F, 0x07, 0x4F] := by decide

/-- S3: `seq.recal 2` sends 07 02. -/
theorem test_seqRecalibrate_first :
    (after { busyAt 0x00000221 .first with oracle := [0x80] }).cmd = [0x07, 0x02] := by decide

/-- S4: `seq.read 0, 1, 5, 3` sends E6 04 05 01 03 02 12 1B FF. -/
theorem test_seqReadData_first :
    (after { busyAt 0x03050422 .first with oracle := [0x80] }).cmd =
      [0xE6, 0x04, 0x05, 0x01, 0x03, 0x02, 0x12, 0x1B, 0xFF] := by decide
/-- S6: the fourth byte is refused. -/
theorem test_seqReadData_timeout :
    (after (exchanging 0x03050422 (.send .poll) [0xE6, 0x04, 0x05, 0x01, 0x03, 0x02, 0x12, 0x1B, 0xFF] 3 500
      [0x00])).events =
      [.ioRd 0x3F4 0x00, .log .writeTimeout 0x01, .resp ⟨.timeout, #v[0, 0, 0, 0, 0, 0, 0], 3, 0, 0x22⟩] := by decide

/-- S5: `seq.write 1, 0, 79, 18` sends E5 01 4F 00 12 02 12 1B FF. -/
theorem test_seqWriteData_first :
    (after { busyAt 0x124F0123 .first with oracle := [0x80] }).cmd =
      [0xE5, 0x01, 0x4F, 0x00, 0x12, 0x02, 0x12, 0x1B, 0xFF] := by decide

/-- S7. -/
theorem test_seqVersion_value :
    (after (exchanging 0x00000024 (.recv .access) [0x10] 0 0 [0x90])).events =
      [.ioRd 0x3F5 0x90, .resp ⟨.ok, #v[0x90, 0, 0, 0, 0, 0, 0], 1, 1, 0x24⟩] := by decide
/-- S8. -/
theorem test_seqVersion_noController :
    (after (exchanging 0x00000024 (.recv .access) [0x10] 0 0 [0xFF])).events =
      [.ioRd 0x3F5 0xFF, .resp ⟨.noController, #v[0xFF, 0, 0, 0, 0, 0, 0], 1, 1, 0x24⟩] := by decide

/-- S11: `seq.config 1, 0, 1, 15, 0` sends 13 00 5F 00. -/
theorem test_seqConfigure_first :
    (after { busyAt 0x00005F25 .first with oracle := [0x80] }).cmd = [0x13, 0x00, 0x5F, 0x00] := by decide

/-- S12. -/
theorem test_seqLock_value :
    (after (exchanging 0x00000026 (.recv .access) [0x94] 0 0 [0x10])).events =
      [.ioRd 0x3F5 0x10, .resp ⟨.ok, #v[0x10, 0, 0, 0, 0, 0, 0], 1, 1, 0x26⟩] := by decide

/-- S14: two bytes read, then the handshake expires. -/
theorem test_seqReadResult_timeout :
    let S := Config.readSentinel
    (after { exchanging 0x00000727 (.recv .poll) [] 2 500 [0x80] with res := #v[0x40, 0x02, S, S, S, S, S] }).events =
      [.ioRd 0x3F4 0x80, .resp ⟨.timeout, #v[0x40, 0x02, S, S, S, S, S], 0, 2, 0x27⟩] := rfl
/-- S15: the last step. -/
theorem test_seqReadResult_value :
    (after { exchanging 0x00000227 (.recv .access) [] 1 0 [0x0A] with res := #v[0x20, 0, 0, 0, 0, 0, 0] }).events =
      [.ioRd 0x3F5 0x0A, .resp ⟨.ok, #v[0x20, 0x0A, 0, 0, 0, 0, 0], 0, 2, 0x27⟩] := by decide

/-- T1 and the largest LBA of section 2.5. -/
theorem test_geoLbaToChs_35 :
    (after (busyAt 0x0000002300000030 .first)).events = [.resp ⟨.ok, #v[1, 18, 0, 0, 0, 0, 0], 0, 0, 0x30⟩] := by decide
theorem test_geoLbaToChs_max :
    (after (busyAt 0xFFFFFFFF00000030 .first)).events =
      [.resp ⟨.ok, #v[0, 4, 0, 0, 0, 0, 0], 119304647, 0, 0x30⟩] := by decide

/-- Section 2.5: `geo.lba 79, 1, 18` and `geo.lba 119304647, 0, 5`. -/
theorem test_geoChsToLba_last :
    (after (busyAt 0x0000004F00120131 .first)).events =
      [.resp ⟨.ok, #v[0, 0, 0, 0, 0, 0, 0], 2879, 0, 0x31⟩] := by decide
theorem test_geoChsToLba_tooLarge :
    (after (busyAt 0x071C71C700050031 .first)).events =
      [.resp ⟨.invalidChs, #v[0, 0, 0, 0, 0, 0, 0], 0, 0, 0x31⟩] := by decide

/-- T4: `dma.prog 0xFFFF, 2, read`. -/
theorem test_dmaProgram_boundary :
    let t := after (busyAt 0x000000020000FFFF00000040 .first)
    t.phase = .faulted ∧ t.fault = .dmaBoundary ∧ t.events = [.fault .dmaBoundary] := by decide
/-- `dma.prog 0x1FC00, 1024, write`: the fourth write is 04←FC, and the mode byte is 5A. -/
theorem test_dmaProgram_writes :
    (after { busyAt 0x000004000001FC0000000140 .dma with i := 3 }).events = [.ioWr 0x04 0xFC] ∧
    (after { busyAt 0x000004000001FC0000000140 .dma with i := 8 }).events = [.ioWr 0x0B 0x5A] := by decide

/-- Section 2.7: the last row wins, and bits no row names are ignored. -/
theorem test_classify_override :
    (after (busyAt 0x00024050 .first)).events = [.resp ⟨.ok, #v[6, 0, 0, 0, 0, 0, 0], 0, 0, 0x50⟩] ∧
    (kindOf 0x40 0x24 0x00).code = 9 ∧ (kindOf 0x40 0x00 0x12).code = 12 ∧ (kindOf 0xC0 0xFF 0xFF).code = 13 := by decide
theorem test_classify_ignored :
    (kindOf 0x37 0x48 0x8C).code = 0 ∧ (kindOf 0xFF 0 0).code = 4 ∧ (kindOf 0x80 0 0).code = 2 ∧
    (kindOf 0 0x10 0).code = 8 := by decide

/-! ## One step of each command phase, inside the operation that sends it (S1 to S12) -/

theorem test_fdcReadData_head :
    (after (exchanging 0x03050422 (.send .access) [0xE6, 0x04, 0x05, 0x01, 0x03, 0x02, 0x12, 0x1B, 0xFF] 3 0 [])).events =
      [.ioWr 0x3F5 0x01] := by decide
theorem test_fdcWriteData_last :
    (after (exchanging 0x124F0123 (.send .access) [0xE5, 0x01, 0x4F, 0x00, 0x12, 0x02, 0x12, 0x1B, 0xFF] 8 0 [])).events =
      [.ioWr 0x3F5 0xFF, .resp ⟨.ok, #v[0, 0, 0, 0, 0, 0, 0], 9, 0, 0x23⟩] := by decide
theorem test_fdcSeek_driveHead :
    (after (exchanging 0x004F0720 (.send .access) [0x0F, 0x07, 0x4F] 1 0 [])).events = [.ioWr 0x3F5 0x07] := by decide
theorem test_fdcRecalibrate_last :
    (after (exchanging 0x00000221 (.send .access) [0x07, 0x02] 1 0 [])).events =
      [.ioWr 0x3F5 0x02, .resp ⟨.ok, #v[0, 0, 0, 0, 0, 0, 0], 2, 0, 0x21⟩] := by decide
theorem test_fdcSenseInterrupt_sent :
    let t := after (exchanging 0x00000012 (.send .access) [0x08] 0 0 [])
    t.events = [.ioWr 0x3F5 0x08] ∧ t.pos = .recv .poll := ⟨rfl, rfl⟩
theorem test_fdcVersion_sent :
    let t := after (exchanging 0x00000024 (.send .access) [0x10] 0 0 [])
    t.events = [.ioWr 0x3F5 0x10] ∧ t.pos = .recv .poll := ⟨rfl, rfl⟩
theorem test_fdcConfigure_cfg :
    (after (exchanging 0x00005F25 (.send .access) [0x13, 0x00, 0x5F, 0x00] 2 0 [])).events =
      [.ioWr 0x3F5 0x5F] := by decide
theorem test_fdcLock_sent :
    let t := after (exchanging 0x00000026 (.send .access) [0x94] 0 0 [])
    t.events = [.ioWr 0x3F5 0x94] ∧ t.pos = .recv .poll := ⟨rfl, rfl⟩

/-! ## The other agents -/

/-- I9, I12: a delivery latches, a second coalesces, also in FAULTED. -/
theorem test_irqSignal :
    let t := after (after { State.reset with phase := .faulted, fault := .dmaCount, schedule := [.irq, .irq] })
    t.irqFlag = true ∧ t.phase = .faulted ∧ t.events = [.irqLatched, .irqCoalesced] := by decide

/-- F2, I11: RESET out of FAULTED clears the fault and the latch. -/
theorem test_reset :
    let t := after { State.reset with phase := .faulted, fault := .dmaBoundary, irqFlag := true, schedule := [.reset] }
    t.phase = .idle ∧ t.fault = .none ∧ t.irqFlag = false ∧ t.events = [.reset] := by decide

/-- P5: FAULTED has no step of its own. -/
theorem test_faulted_stuck :
    step { State.reset with phase := .faulted, fault := .dmaCount } = .fault .awaitingReset := rfl

/-! ## Witnesses: the hypotheses of each obligation, met together

Several clauses over one input get a witness each, at the ends of the range. -/

/-- At the first statement of this request, with the oracle's answers. -/
def starting (q : Request) (oracle : List Byte) : State := { busyAt q .first with oracle := oracle }

theorem starting_starts (q : Request) (oracle : List Byte) : Starts q (starting q oracle) :=
  ⟨rfl, rfl, ⟨rfl, rfl, rfl, rfl, rfl, rfl⟩, rfl⟩

/-- A BUSY state at a statement of its operation meets the invariant. -/
theorem consistent_of_statement {s : State} {q : Request} (hp : s.phase = .busy) (ho : s.op = some q)
    (hf : s.fault = .none) (h : AtStatement q s) : Consistent s :=
  ⟨by simp [hp, ho], by simp [hp, hf], fun hn => absurd hp hn, fun q' hq' => by rw [ho] at hq'; cases hq'; exact h⟩

theorem starting_consistent (q : Request) (oracle : List Byte) : Consistent (starting q oracle) :=
  consistent_of_statement rfl rfl rfl ⟨rfl, rfl, rfl, rfl, rfl, rfl⟩

/-- `seq.seek 3, 1, 79` at the write of its second byte. -/
def seeking : State := exchanging 0x004F0720 (.send .access) [0x0F, 0x07, 0x4F] 1 0 []

theorem seeking_consistent : Consistent seeking :=
  consistent_of_statement (q := 0x004F0720) rfl rfl rfl ⟨.seqSeek 3 1 79, by decide, by decide, by decide, Nat.zero_le _⟩

/-- `seq.version` at the read of its result byte, which the oracle answers with 0xFF. -/
def versionRead : State :=
  { exchanging 0x00000024 (.recv .access) [0x10] 0 0 [0xFF] with res := rbUnread 1 }

theorem versionRead_consistent : Consistent versionRead :=
  consistent_of_statement (q := 0x00000024) rfl rfl rfl
    ⟨.seqVersion, by decide, by decide, by decide, by decide, Nat.zero_le _, fun j _ => by
      simp [versionRead, exchanging, busyAt, rbUnread, resultCount]⟩

/-- `seq.result 7` at a read handshake about to expire, with two bytes read. -/
def resultExpiring : State :=
  { exchanging 0x00000727 (.recv .poll) [] 2 500 [0x80] with
    res := ((rbUnread 7).setIfInBounds 0 0x40).setIfInBounds 1 0x02 }

theorem resultExpiring_consistent : Consistent resultExpiring :=
  consistent_of_statement (q := 0x00000727) rfl rfl rfl
    ⟨.seqReadResult 7, by decide, by decide, by decide, by decide, Nat.le_refl _, fun j hj => by
      have hj : 2 ≤ j.val := hj
      have h0 : (0 : Nat) ≠ j.val := by omega
      have h1 : (1 : Nat) ≠ j.val := by omega
      simp [resultExpiring, rbUnread, resultCount, Vector.getElem_setIfInBounds_ne, h0, h1]⟩

theorem witness_ResetStepRestoresTheResetValues :
    ({ seeking with schedule := [.reset] } : State).turn = .reset := rfl

theorem witness_IrqSignalLatchesOrCoalesces :
    ({ seeking with schedule := [.irq] } : State).turn = .irq ∧
    ({ seeking with schedule := [.irq], irqFlag := true } : State).turn = .irq := ⟨rfl, rfl⟩

theorem witness_HostIssuesExactlyWhenIdle :
    (let s : State := { State.reset with requests := [0x12] };
      s.turn = .block ∧ s.phase = .idle ∧ s.requests = [0x12]) ∧
    (∃ t, step { seeking with requests := [0x12] } = .next t) ∧ seeking.phase ≠ .idle ∧
    ∃ t, step { State.reset with phase := .faulted, schedule := [.irq] } = .next t :=
  ⟨⟨rfl, rfl, rfl⟩, ⟨_, rfl⟩, by decide, ⟨_, rfl⟩⟩

theorem witness_StepRunsTheFetchedInstruction :
    (let s := starting 0x00024050 [];
      s.turn = .block ∧ s.phase = .busy ∧ s.op = some 0x00024050 ∧ (∀ h, s.pos ≠ .send h) ∧
        decodeRequest 0x00024050 = .ok (.classify 0x40 0x02 0x00)) ∧
    seeking.turn = .block ∧ seeking.phase = .busy ∧ seeking.op = some 0x004F0720 ∧ seeking.pos = .send .access ∧
      decodeCommand seeking.cmd = .ok (.fdcSeek 0x07 79, []) :=
  ⟨⟨rfl, rfl, rfl, fun h => Pos.noConfusion, by decide⟩, rfl, rfl, rfl, rfl, by decide⟩

theorem witness_EveryStatementIsAStepOfTheRequest :
    Consistent seeking ∧ seeking.turn = .block ∧ seeking.op = some 0x004F0720 ∧
      decodeRequest 0x004F0720 = .ok (.seqSeek 3 1 79) := ⟨seeking_consistent, rfl, rfl, by decide⟩

/-- One step that stays BUSY and one that ends. -/
theorem witness_OneOperationAtATime :
    (seeking.phase = .busy ∧ ∃ t, step seeking = .next t ∧ t.phase = .busy) ∧
    ((starting 0x00024050 []).phase = .busy ∧ ∃ t, step (starting 0x00024050 []) = .next t ∧ t.phase ≠ .busy) :=
  ⟨⟨rfl, _, rfl, rfl⟩, rfl, _, rfl, by decide⟩

theorem witness_SignalAndFinalCheckInEitherOrder :
    let s := busyAt 0x00030001 .check
    s.phase = .busy ∧ s.op = some 0x00030001 ∧ decodeRequest 0x00030001 = .ok (.irqWait 3) ∧ s.pos = .check ∧
      s.remaining = 0 ∧ s.irqFlag = false := ⟨rfl, rfl, by decide, rfl, rfl, rfl⟩

theorem witness_DecodeOfEncodeIsTheInstruction :
    (Instr.seqReadResult 7).wellFormed = true ∧ (Instr.seqReadResult 1).wellFormed = true ∧
    (Instr.fdcWriteData 0x07 255 1 255 2 18 0x1B 0xFF).wellFormed = true := by decide

theorem witness_EncodeOfDecodeIsTheWord : decodeRequest 0x124F0123 = .ok (.seqWriteData 1 0 79 18) := by decide

theorem witness_CommandPhaseOfDecodeIsTheBytes :
    decodeCommand [0x07, 0x02, 0x08] = .ok (.fdcRecalibrate 2, [0x08]) := by decide

theorem not_validWord_zero : ¬ ValidWord 0 := by
  rintro ⟨⟨row, hr, h⟩, -⟩
  simp only [requestRows, List.mem_cons, List.not_mem_nil, or_false] at hr
  rcases hr with rfl | rfl | rfl | rfl | rfl | rfl | rfl | rfl | rfl | rfl | rfl | rfl | rfl | rfl | rfl | rfl <;>
    revert h <;> decide

theorem witness_IllegalWordsAreAnsweredInOneStep :
    let s := starting 0 []
    s.turn = .block ∧ s.phase = .busy ∧ s.op = some 0 ∧ s.pos = .first ∧ ¬ ValidWord 0 :=
  ⟨rfl, rfl, rfl, rfl, not_validWord_zero⟩

/-- The seven clauses: at the first statement with and without a signal, for t = 0 and t ≠ 0, and at the later ones. -/
theorem witness_IrqWaitChecksAndTicks :
    ({ starting 0x00010001 [] with irqFlag := true } : State).irqFlag = true ∧
    ((starting 0x00000001 []).pos = .first ∧ (starting 0x00000001 []).irqFlag = false ∧ (0 : BitVec 16) = 0) ∧
    ((starting 0xFFFF0001 []).pos = .first ∧ (0xFFFF : BitVec 16) ≠ 0) ∧
    (busyAt 0x00010001 .waitTick).pos = .waitTick ∧
    ((busyAt 0x00010001 .check).pos = .check ∧ (busyAt 0x00010001 .check).remaining = 0 ∧
      (busyAt 0x00010001 .check).irqFlag = false) ∧
    (({ busyAt 0x00010001 .check with irqFlag := true } : State).irqFlag = true) ∧
    ({ busyAt 0x00030001 .check with remaining := 2 } : State).remaining ≠ 0 := by decide

/-- t at both ends of its range. -/
theorem witness_IrqWaitWithoutSignalTimesOut :
    (decodeRequest 0x00000001 = .ok (.irqWait 0) ∧ Starts 0x00000001 (starting 0x00000001 [])) ∧
    (decodeRequest 0xFFFF0001 = .ok (.irqWait 65535) ∧ Starts 0xFFFF0001 (starting 0xFFFF0001 [])) ∧
    (starting 0xFFFF0001 []).irqFlag = false :=
  ⟨⟨by decide, starting_starts _ _⟩, ⟨by decide, starting_starts _ _⟩, rfl⟩

/-- k = 0, and k = t (I4). -/
theorem witness_IrqWaitSeesASignalAfterAnyTick :
    decodeRequest 0x00030001 = .ok (.irqWait 3) ∧ Starts 0x00030001 (starting 0x00030001 []) ∧
      (starting 0x00030001 []).irqFlag = false ∧ 0 ≤ (3 : BitVec 16).toNat ∧ 3 ≤ (3 : BitVec 16).toNat :=
  ⟨by decide, starting_starts _ _, rfl, by decide, by decide⟩

/-- The latch set by a signal, cleared by RESET, and cleared by a check that returns. -/
theorem witness_OnlySignalResetAndReturningChecksWriteTheLatch :
    (∃ t, step { seeking with schedule := [.irq] } = .next t ∧ t.irqFlag ≠ seeking.irqFlag) ∧
    (∃ t, step { seeking with schedule := [.reset], irqFlag := true } = .next t ∧ t.irqFlag ≠ true) ∧
    (∃ t, step { starting 0x00010001 [] with irqFlag := true } = .next t ∧ t.irqFlag ≠ true) :=
  ⟨⟨_, rfl, by decide⟩, ⟨_, rfl, by decide⟩, ⟨_, rfl, by decide⟩⟩

/-- An operation that sends and one that only reads. -/
theorem witness_ExchangesBeginWithAStatusRead :
    (isExchange (.seqSeek 3 1 79) = true ∧ commandPhase (.seqSeek 3 1 79) ≠ [] ∧ (starting 0x004F0720 []).pos = .first) ∧
    (isExchange (.seqReadResult 7) = true ∧ commandPhase (.seqReadResult 7) = [] ∧
      (starting 0x00000727 []).pos = .first) := by decide

/-- Each of the three places, at each of the three clauses: the match, the miss with one Tick left, and the Tick. -/
theorem witness_HandshakePollsReadTheStatusAndTick :
    isExchange (.seqSeek 3 1 79) = true ∧ isExchange .ccReadByte = true ∧
    (∀ p ∈ [(Pos.send .poll, (0b10 : BitVec 2), (0x80 : Byte)), (.put .poll, 0b10, 0xA3), (.recv .poll, 0b11, 0xFF)],
      (exchanging 0 p.1 [] 0 0 [p.2.2]).answer.extractLsb' 6 2 = p.2.1) ∧
    (∀ p ∈ [(Pos.send .poll, (0b10 : BitVec 2), (0xC0 : Byte)), (.put .poll, 0b10, 0x7F), (.recv .poll, 0b11, 0x80)],
      (exchanging 0 p.1 [] 0 499 [p.2.2]).answer.extractLsb' 6 2 ≠ p.2.1 ∧
        (exchanging 0 p.1 [] 0 499 [p.2.2]).polls ≠ 500) := by decide

/-- A byte with more to come, the last byte of a command with no result, and the last of one with a result. -/
theorem witness_SendWritesEachByteInOrder :
    (seeking.pos = .send .access ∧ (commandPhase (.seqSeek 3 1 79))[1]? = some 0x07) ∧
    (commandPhase (.fdcSeek 0x07 79))[2]? = some 0x4F ∧ (commandPhase .seqVersion)[0]? = some 0x10 := by decide

theorem witness_SendTimeoutLogsAndStops :
    let s := exchanging 0x03050422 (.send .poll) [] 8 500 [0x00]
    s.pos = .send .poll ∧ (commandPhase (.seqReadData 0 1 5 3))[s.i]? = some 0xFF ∧ s.polls = 500 ∧
      s.answer.extractLsb' 6 2 ≠ 0b10 := by decide

/-- A byte with more to come, and the last one. -/
theorem witness_ReadPutsEachByteInItsPosition :
    isExchange (.seqReadResult 7) = true ∧
    (exchanging 0x00000727 (.recv .access) [] 5 0 [2]).pos = .recv .access ∧ 5 + 1 < resultCount (.seqReadResult 7) ∧
    isExchange .fdcVersion = true ∧ versionRead.pos = .recv .access ∧ ¬ versionRead.i + 1 < resultCount .fdcVersion := by
  refine ⟨by decide, rfl, by decide, by decide, rfl, by decide⟩

theorem witness_ReadTimeoutKeepsTheSentinels :
    Consistent resultExpiring ∧ resultExpiring.op = some 0x00000727 ∧
      decodeRequest 0x00000727 = .ok (.seqReadResult 7) ∧ resultExpiring.pos = .recv .poll ∧
      resultExpiring.polls = 500 ∧ resultExpiring.answer.extractLsb' 6 2 ≠ 0b11 :=
  ⟨resultExpiring_consistent, rfl, by decide, rfl, rfl, by decide⟩

theorem witness_WriteByteCompletesOrLogs :
    (busyAt 0x00000810 (.put .access)).pos = .put .access ∧
    (let s := exchanging 0x00000810 (.put .poll) [] 0 500 [0xFF];
      s.pos = .put .poll ∧ s.polls = 500 ∧ s.answer.extractLsb' 6 2 ≠ 0b10) ∧
    (starting 0x00000810 []).pos = .first := by decide

theorem witness_FifoOperationsWriteNoBlockState :
    (isExchange (.seqSeek 3 1 79) = true ∧ ∃ t, exec (.seqSeek 3 1 79) seeking = .next t) ∧
    ∃ t, exec (.ccWriteByte 8) (starting 0x00000810 []) = .next t := ⟨⟨by decide, _, rfl⟩, _, rfl⟩

/-- H1, H7 and H11. -/
theorem witness_CommandChannelFollowsItsPseudocode :
    (decodeRequest 0x00000810 = .ok (.ccWriteByte 0x08) ∧ Starts 0x00000810 (starting 0x00000810 [0x80]) ∧
      (Reading.writeByte 0x08 0x10 [0x80]).isSome = true) ∧
    (decodeRequest 0x00000011 = .ok .ccReadByte ∧ Starts 0x00000011 (starting 0x00000011 [0xD0, 0x20]) ∧
      (Reading.operation .ccReadByte 0x11 [0xD0, 0x20]).isSome = true) ∧
    (decodeRequest 0x00000012 = .ok .ccSenseInterrupt ∧
      Starts 0x00000012 (starting 0x00000012 [0x80, 0xD0, 0x20, 0xD0, 0x0A]) ∧
      (Reading.operation .ccSenseInterrupt 0x12 [0x80, 0xD0, 0x20, 0xD0, 0x0A]).isSome = true) :=
  ⟨⟨by decide, starting_starts _ _, rfl⟩, ⟨by decide, starting_starts _ _, rfl⟩, by decide, starting_starts _ _, rfl⟩

/-- S2, S8 and S15. -/
theorem witness_SequencerFollowsItsPseudocode :
    (decodeRequest 0x004F0720 = .ok (.seqSeek 3 1 79) ∧ Starts 0x004F0720 (starting 0x004F0720 [0x80, 0x80, 0x80]) ∧
      (Reading.operation (.seqSeek 3 1 79) 0x20 [0x80, 0x80, 0x80]).isSome = true) ∧
    (decodeRequest 0x00000024 = .ok .seqVersion ∧ Starts 0x00000024 (starting 0x00000024 [0x80, 0xD0, 0xFF]) ∧
      (Reading.operation .seqVersion 0x24 [0x80, 0xD0, 0xFF]).isSome = true) ∧
    (decodeRequest 0x00000227 = .ok (.seqReadResult 2) ∧
      Starts 0x00000227 (starting 0x00000227 [0xD0, 0x20, 0xD0, 0x0A]) ∧
      (Reading.operation (.seqReadResult 2) 0x27 [0xD0, 0x20, 0xD0, 0x0A]).isSome = true) :=
  ⟨⟨by decide, starting_starts _ _, rfl⟩, ⟨by decide, starting_starts _ _, rfl⟩, by decide, starting_starts _ _, rfl⟩

/-- `irq.wait 1`, with a delivery between its steps. -/
theorem witness_OperationsEndWithinTheirStepBounds :
    decodeRequest 0x00010001 = .ok (.irqWait 1) ∧ Starts 0x00010001 (starting 0x00010001 []) ∧
      (∀ x ∈ [Turn.block, .irq, .block, .block], x ≠ .reset) ∧
      [Turn.block, .irq, .block, .block].count .block = maxSteps (.irqWait 1) :=
  ⟨by decide, starting_starts _ _, by decide, by decide⟩

/-- The formulas at both ends, and the requests at the largest LBA. -/
theorem witness_LbaToChsToLbaIsTheIdentity :
    (1 ≤ 1 ∧ 1 ≤ 255 ∧ 0 < 2 ^ 32) ∧ (1 ≤ 255 ∧ 255 ≤ 255 ∧ 2 ^ 32 - 1 < 2 ^ 32) ∧
    exec (.geoLbaToChs 0xFFFFFFFF) (starting 0xFFFFFFFF00000030 []) =
      .next (ended [] ⟨.ok, #v[0, 4, 0, 0, 0, 0, 0], 119304647, 0, 0x30⟩ (starting 0xFFFFFFFF00000030 [])) :=
  ⟨by decide, by decide, rfl⟩

theorem witness_ChsToLbaToChsIsTheIdentity :
    lbaOf 18 119304647 0 4 = some (2 ^ 32 - 1) ∧ lbaOf 1 0 0 1 = some 0 ∧ lbaOf 255 0 1 255 = some 509 := by decide

/-- Each clause at the ends of its range. -/
theorem witness_DmaPreconditionsFaultInOrder :
    (0x1000000 : Word32).toNat ≥ 2 ^ 24 ∧
    ((0xFFFFFF : Word32).toNat < 2 ^ 24 ∧ (0 : Word32).toNat = 0) ∧
    ((0x20000 : Word32).toNat < 2 ^ 24 ∧ (0x10001 : Word32).toNat - 1 ≥ 2 ^ 16) ∧
    ((0xFFFFFF : Word32).toNat < 2 ^ 24 ∧ (2 : Word32).toNat ≠ 0 ∧ (2 : Word32).toNat - 1 < 2 ^ 16 ∧
      (0xFFFFFF : Word32).toNat % 2 ^ 16 + ((2 : Word32).toNat - 1) ≥ 2 ^ 16) ∧
    (starting 0 []).pos = .first := by decide

/-- `dma.prog 0xFFFFFF, 1, read` and `dma.prog 0x20000, 0x10000, read`. -/
theorem witness_DmaProgramWritesTheChannel :
    (decodeRequest 0x0000000100FFFFFF00000040 = .ok (.dmaProgram 0xFFFFFF 1 .read) ∧
      Starts 0x0000000100FFFFFF00000040 (starting 0x0000000100FFFFFF00000040 []) ∧
      dmaCheck 0xFFFFFF 1 = none) ∧
    (decodeRequest 0x000100000002000000000040 = .ok (.dmaProgram 0x20000 0x10000 .read) ∧
      (0x20000 : Word32).toNat < 2 ^ 24 ∧ (0x10000 : Word32).toNat ≠ 0 ∧ (0x10000 : Word32).toNat - 1 < 2 ^ 16 ∧
      (0x20000 : Word32).toNat % 2 ^ 16 + ((0x10000 : Word32).toNat - 1) < 2 ^ 16) :=
  ⟨⟨by decide, starting_starts _ _, by decide⟩, by decide⟩

/-- A write with more to come, and the last. -/
theorem witness_DmaStepsWriteOnePortEach :
    (busyAt 0x000100000002000000000040 .dma).pos = .dma ∧
    (dmaWrites 0x20000 0x10000 .read)[1]? = some (0x0C, 0xFF) ∧
    (dmaWrites 0x20000 0x10000 .read)[9]? = some (0x0A, 0x02) := by decide

/-- k = 1 and k = 9. -/
theorem witness_AbandonedDmaProgramLeavesTheChannelMasked :
    decodeRequest 0x000100000002000000000040 = .ok (.dmaProgram 0x20000 0x10000 .read) ∧
      Starts 0x000100000002000000000040 (starting 0x000100000002000000000040 []) ∧
      dmaCheck 0x20000 0x10000 = none ∧ 1 ≤ 1 ∧ 1 < 10 ∧ 1 ≤ 9 ∧ 9 < 10 :=
  ⟨by decide, starting_starts _ _, by decide, by decide, by decide, by decide, by decide⟩

theorem witness_EveryStepKeepsTheInvariant : Consistent seeking ∧ ∃ t, step seeking = .next t :=
  ⟨seeking_consistent, _, rfl⟩

theorem witness_BusyStatesAlwaysStep : Consistent versionRead ∧ versionRead.phase = .busy :=
  ⟨versionRead_consistent, rfl⟩

/-- FAULTED on the block's turn, and left by RESET. -/
theorem witness_FaultedIsLeftOnlyByReset :
    let s : State := { State.reset with phase := .faulted, fault := .dmaCount }
    s.phase = .faulted ∧ s.turn = .block ∧
      ∃ t, step { s with schedule := [.reset] } = .next t ∧ t.phase ≠ .faulted ∧ t.fault ≠ s.fault :=
  ⟨rfl, rfl, _, rfl, by decide, by decide⟩

/-- A reason written by DMA_PROGRAM, and one cleared by RESET. -/
theorem witness_OnlyDmaProgramAndResetWriteTheFault :
    (∃ t, step (starting 0x000000020000FFFF00000040 []) = .next t ∧ t.fault ≠ .none) ∧
    (∃ t, step { State.reset with phase := .faulted, fault := .dmaCount, schedule := [.reset] } = .next t ∧
      t.fault ≠ .dmaCount) := ⟨⟨_, rfl, by decide⟩, _, rfl, by decide⟩

/-- A response, and the fault. -/
theorem witness_OperationsHaveOnlyTheirOutcomes :
    (Consistent (starting 0x00024050 []) ∧ (starting 0x00024050 []).op = some 0x00024050 ∧
      decodeRequest 0x00024050 = .ok (.classify 0x40 0x02 0x00) ∧
      ∃ t, step (starting 0x00024050 []) = .next t ∧ t.events = [.resp ⟨.ok, #v[6, 0, 0, 0, 0, 0, 0], 0, 0, 0x50⟩]) ∧
    (Consistent (starting 0x000000020000FFFF00000040 []) ∧
      decodeRequest 0x000000020000FFFF00000040 = .ok (.dmaProgram 0xFFFF 2 .read) ∧
      ∃ t, step (starting 0x000000020000FFFF00000040 []) = .next t ∧ t.phase = .faulted) :=
  ⟨⟨starting_consistent _ _, rfl, by decide, _, rfl, by decide⟩, starting_consistent _ _, by decide, _, rfl, rfl⟩

theorem witness_ResponsesCopyTheOpcode :
    ∃ t r, step (starting 0x00024050 []) = .next t ∧ t.events = (starting 0x00024050 []).events ++ [.resp r] :=
  ⟨_, ⟨.ok, #v[6, 0, 0, 0, 0, 0, 0], 0, 0, 0x50⟩, rfl, by decide⟩

theorem witness_NoControllerOnlyAfterReadingFF :
    Consistent versionRead ∧ ∃ t r, step versionRead = .next t ∧
      t.events = versionRead.events ++ [.ioRd 0x3F5 0xFF, .resp r] ∧ r.status = .noController :=
  ⟨versionRead_consistent, _, ⟨.noController, #v[0xFF, 0, 0, 0, 0, 0, 0], 1, 1, 0x24⟩, rfl, by decide, rfl⟩

/-- A step that makes a port access: for the four statements about every step that answers a next state
(OnlyTheNamedPortsAreAccessed, EachStepHoldsAtMostOnePrimitive, DmaRegistersInfluenceNothing,
HistoryInfluencesNothing). -/
theorem witness_steps_with_next :
    (∃ t, step seeking = .next t) ∧ ∃ t, step (starting 0x000100000002000000000040 []) = .next t := ⟨⟨_, rfl⟩, _, rfl⟩

end Sys2Proof.Tests
end

section
/-!
The history of one step (O53, O55). One predicate carries both statements: an update adds the same events, at most so
many of them primitives of R24, whatever the history holds, and leaves every other field as it leaves it with any other
history. It is proved of each shared operation, then of `exec`, then of `step`.
-/

namespace Sys2Proof.Machine

open Reading (steps)

/-! ## Updates that add to the history and do not read it -/

/-- The state with another history. -/
def State.withPast (past : List Event) (s : State) : State := { s with events := past }

@[simp] theorem withPast_pos (past : List Event) (s : State) : (s.withPast past).pos = s.pos := rfl
@[simp] theorem withPast_i (past : List Event) (s : State) : (s.withPast past).i = s.i := rfl
@[simp] theorem withPast_turn (past : List Event) (s : State) : (s.withPast past).turn = s.turn := rfl
@[simp] theorem withPast_phase (past : List Event) (s : State) : (s.withPast past).phase = s.phase := rfl
@[simp] theorem withPast_requests (past : List Event) (s : State) : (s.withPast past).requests = s.requests := rfl
@[simp] theorem withPast_fetch (past : List Event) (s : State) : fetch (s.withPast past) = fetch s := rfl

/-- From s, the update adds events of which at most n are primitives (R24), and whatever the history holds it adds the
same events and does the same. -/
def Adds (n : Nat) (f : State → State) (s : State) : Prop :=
  ∃ evs, steps evs ≤ n ∧ ∀ past, f (s.withPast past) = (f s).withPast (past ++ evs)

theorem steps_append (a b : List Event) : steps (a ++ b) = steps a + steps b := List.countP_append

variable {m n : Nat} {f g : State → State} {s : State}

/-- An update that leaves the history alone. -/
theorem adds_nothing (h : ∀ past, f (s.withPast past) = (f s).withPast past) : Adds 0 f s :=
  ⟨[], le_rfl, fun past => by rw [h, List.append_nil]⟩

/-- An update that records one event. -/
theorem adds_event (e : Event) (h : ∀ past, f (s.withPast past) = (f s).withPast (past ++ [e])) :
    Adds (steps [e]) f s :=
  ⟨[e], le_rfl, h⟩

theorem Adds.mono (hf : Adds m f s) (hmn : m ≤ n) : Adds n f s := by
  obtain ⟨evs, hle, h⟩ := hf
  exact ⟨evs, hle.trans hmn, h⟩

theorem Adds.comp (hg : Adds n g (f s)) (hf : Adds m f s) : Adds (m + n) (fun x => g (f x)) s := by
  obtain ⟨fs, hfs, hf⟩ := hf
  obtain ⟨gs, hgs, hg⟩ := hg
  refine ⟨fs ++ gs, by rw [steps_append]; omega, fun past => ?_⟩
  show g (f (s.withPast past)) = _
  rw [hf, hg, List.append_assoc]

/-- An update may be looked at as another that agrees with it on this state under every history. -/
theorem Adds.congr (hg : Adds n g s) (h : ∀ past, f (s.withPast past) = g (s.withPast past)) : Adds n f s := by
  obtain ⟨evs, hle, hadd⟩ := hg
  have hs : f s = g s := h s.events
  exact ⟨evs, hle, fun past => by rw [h, hadd, hs]⟩

/-- A branch on a condition that does not look at the history. -/
theorem Adds.ite {c : State → Prop} [∀ x, Decidable (c x)] (hc : ∀ past, c (s.withPast past) ↔ c s)
    (hf : c s → Adds n f s) (hg : ¬ c s → Adds n g s) : Adds n (fun x => if c x then f x else g x) s := by
  by_cases h : c s
  · exact (hf h).congr fun past => if_pos ((hc past).mpr h)
  · exact (hg h).congr fun past => if_neg fun hp => h ((hc past).mp hp)

/-! ## The primitives, and the ends of an operation -/

theorem ioRead8_adds (p : Port) (s : State) : Adds 1 (ioRead8 p) s := adds_event (.ioRd p s.answer) fun _ => rfl

theorem ioWrite8_adds (p : Port) (v : Byte) (s : State) : Adds 1 (ioWrite8 p v) s :=
  adds_event (.ioWr p v) fun _ => rfl

theorem logWriteTimeout_adds (b : Byte) (s : State) : Adds 0 (logWriteTimeout b) s :=
  adds_event (.log .writeTimeout b) fun _ => rfl

theorem respond_adds (st : Status) (rb : Bytes7) (rw0 rw1 : Word32) (s : State) :
    Adds 0 (respond st rb rw0 rw1) s :=
  adds_event (.resp ⟨st, rb, rw0, rw1, s.opcode⟩) fun _ => rfl

theorem raiseFault_adds (reason : FaultReason) (s : State) : Adds 0 (raiseFault reason) s :=
  adds_event (.fault reason) fun _ => rfl

theorem resetBlock_adds (s : State) : Adds 0 resetBlock s := adds_event .reset fun _ => rfl

theorem irqSignal_adds (s : State) : Adds 0 irqSignal s :=
  .ite (fun _ => Iff.rfl) (fun _ => adds_event .irqCoalesced fun _ => rfl)
    (fun _ => adds_event .irqLatched fun _ => rfl)

/-! ## The handshake, SEND and READN -/

/-- A handshake holds one primitive: its MSR read, its Tick, or its FIFO access; an expiry adds none. -/
theorem handshake_adds {want : Ready} {at_ : Handshake → Pos} {access expired : State → State}
    (haccess : Adds 1 access s) (hexpired : Adds 0 expired (ioRead8 msrPort s)) (h : Handshake) :
    Adds 1 (handshake want at_ access expired h) s := by
  have hread : ∀ p, Adds 1 (fun x => { ioRead8 msrPort x with pos := p }) s := fun p =>
    adds_event (.ioRd msrPort s.answer) fun _ => rfl
  cases h with
  | poll =>
    exact .ite (fun _ => Iff.rfl) (fun _ => hread (at_ .access)) fun _ =>
      .ite (fun _ => Iff.rfl) (fun _ => hexpired.comp (ioRead8_adds msrPort s)) fun _ => hread (at_ .tick)
  | tick => exact adds_event .tick fun _ => rfl
  | access => exact haccess

theorem sendAccess_adds (cmd : List Byte) (n : Nat) (s : State) : Adds 1 (sendAccess cmd n) s := by
  have hwrite : Adds 1 (ioWrite8 fifoPort (cmd.getD s.i 0)) s := ioWrite8_adds ..
  have hlast : Adds 0 (fun x => if n = 0 then respond .ok rbZero (BitVec.ofNat 32 cmd.length) 0 x else startRecv n x)
      (ioWrite8 fifoPort (cmd.getD s.i 0) s) :=
    .ite (fun _ => Iff.rfl) (fun _ => respond_adds ..) (fun _ => adds_nothing fun _ => rfl)
  exact .ite (fun _ => Iff.rfl) (fun _ => adds_event (.ioWr fifoPort (cmd.getD s.i 0)) fun _ => rfl)
    fun _ => (hlast.comp hwrite).congr fun _ => rfl

theorem sendExpired_adds (cmd : List Byte) (n : Nat) (s : State) : Adds 0 (sendExpired cmd n) s :=
  ((respond_adds .timeout (rbUnread n) (BitVec.ofNat 32 s.i) 0 _).comp
    (logWriteTimeout_adds (cmd.getD s.i 0) s)).congr fun _ => rfl

theorem sendStep_adds (cmd : List Byte) (n : Nat) (h : Handshake) (s : State) : Adds 1 (sendStep cmd n h) s :=
  handshake_adds (sendAccess_adds ..) (sendExpired_adds ..) h

theorem recvAccess_adds (sent n : Nat) (done : Bytes7 → Status) (s : State) : Adds 1 (recvAccess sent n done) s := by
  have hread : Adds 1 (fun x => { ioRead8 fifoPort x with res := s.res.setIfInBounds s.i s.answer }) s :=
    adds_event (.ioRd fifoPort s.answer) fun _ => rfl
  refine .ite (fun _ => Iff.rfl) (fun _ => adds_event (.ioRd fifoPort s.answer) fun _ => rfl) fun _ => ?_
  exact ((respond_adds (done (s.res.setIfInBounds s.i s.answer)) (s.res.setIfInBounds s.i s.answer)
    (BitVec.ofNat 32 sent) (BitVec.ofNat 32 n) _).comp hread).congr fun _ => rfl

theorem recvExpired_adds (sent : Nat) (s : State) : Adds 0 (recvExpired sent) s :=
  (respond_adds .timeout s.res (BitVec.ofNat 32 sent) (BitVec.ofNat 32 s.i) s).congr fun _ => rfl

theorem recvStep_adds (sent n : Nat) (done : Bytes7 → Status) (h : Handshake) (s : State) :
    Adds 1 (recvStep sent n done h) s :=
  handshake_adds (recvAccess_adds ..) (recvExpired_adds ..) h

theorem startSend_adds (cmd : List Byte) (s : State) : Adds 0 (startSend cmd) s := adds_nothing fun _ => rfl

theorem startRecv_adds (n : Nat) (s : State) : Adds 0 (startRecv n) s := adds_nothing fun _ => rfl

/-- A step of an exchange is a step of SEND or of READN, and beginning either records nothing. -/
theorem exchange_adds (cmd : List Byte) (n : Nat) (done : Bytes7 → Status) (s : State) :
    Adds 1 (exchange cmd n done) s := by
  cases hp : s.pos with
  | send h => exact (sendStep_adds cmd n h s).congr fun _ => by simp only [exchange, withPast_pos, hp]
  | recv h => exact (recvStep_adds cmd.length n done h s).congr fun _ => by simp only [exchange, withPast_pos, hp]
  | _ =>
    cases cmd with
    | nil =>
      exact ((recvStep_adds 0 n done .poll _).comp (startRecv_adds n s)).congr fun _ => by
        simp only [exchange, withPast_pos, hp]
    | cons b bs =>
      exact ((sendStep_adds (b :: bs) n .poll _).comp (startSend_adds (b :: bs) s)).congr fun _ => by
        simp only [exchange, withPast_pos, hp]

/-! ## The other instructions -/

theorem putStep_adds (b : Byte) (h : Handshake) (s : State) : Adds 1 (putStep b h) s :=
  handshake_adds ((respond_adds .ok rbZero 1 0 _).comp (ioWrite8_adds fifoPort b s))
    ((respond_adds .timeout rbZero 0 0 _).comp (logWriteTimeout_adds b _)) h

theorem irqCheck_adds (s : State) : Adds 0 irqCheck s := by
  have hclear : Adds 0 (fun x => { x with irqFlag := false }) s := adds_nothing fun _ => rfl
  exact .ite (fun _ => Iff.rfl) (fun _ => (respond_adds .ok (rbOf [1]) 0 0 _).comp hclear) fun _ =>
    .ite (fun _ => Iff.rfl) (fun _ => (respond_adds .timeout (rbOf [0]) 0 0 _).comp hclear) fun _ =>
      adds_nothing fun _ => rfl

theorem irqTick_adds (s : State) : Adds 1 irqTick s := adds_event .tick fun _ => rfl

theorem dmaStep_adds (addr count : Word32) (dir : Direction) (i : Nat) (s : State) :
    Adds 1 (dmaStep addr count dir i) s := by
  cases hw : (dmaWrites addr count dir)[i]? with
  | none =>
    exact ((respond_adds .ok rbZero 0 0 s).mono (Nat.zero_le 1)).congr fun _ => by simp only [dmaStep, hw]
  | some w =>
    have hwrite : Adds 1 (fun x => if i + 1 < (dmaWrites addr count dir).length then
        { ioWrite8 w.1 w.2 x with pos := .dma, i := i + 1 } else respond .ok rbZero 0 0 (ioWrite8 w.1 w.2 x)) s :=
      .ite (fun _ => Iff.rfl) (fun _ => adds_event (.ioWr w.1 w.2) fun _ => rfl)
        fun _ => (respond_adds .ok rbZero 0 0 _).comp (ioWrite8_adds w.1 w.2 s)
    exact hwrite.congr fun _ => by simp only [dmaStep, hw]

/-! ## Outcomes -/

/-- `Adds 1` of a step that may stop: if it answers t, it adds at most one primitive, and does so whatever the history
holds. -/
def StepAdds (g : State → Host.Outcome State Fault Refusal) (s : State) : Prop :=
  ∀ t, g s = .next t → ∃ evs, steps evs ≤ 1 ∧ ∀ past, g (s.withPast past) = .next (t.withPast (past ++ evs))

variable {k k' : State → Host.Outcome State Fault Refusal}

theorem Adds.stepAdds (hf : Adds n f s) (hn : n ≤ 1) (h : ∀ past, k (s.withPast past) = .next (f (s.withPast past))) :
    StepAdds k s := by
  intro t ht
  obtain ⟨evs, hle, hadd⟩ := hf
  obtain rfl : f s = t := by
    have := (h s.events).symm.trans ht
    injection this
  exact ⟨evs, hle.trans hn, fun past => by rw [h, hadd]⟩

theorem stepAdds_of_fault {r : Fault} (h : k s = .fault r) : StepAdds k s := by
  intro t ht
  simp [h] at ht

theorem StepAdds.congr (hk' : StepAdds k' s) (h : ∀ past, k (s.withPast past) = k' (s.withPast past)) :
    StepAdds k s := by
  intro t ht
  obtain ⟨evs, hle, hadd⟩ := hk' t ((h s.events).symm.trans ht)
  exact ⟨evs, hle, fun past => (h past).trans (hadd past)⟩

/-- What such a step adds to the history it finds. -/
theorem events_eq_of_answers {t : State} {evs : List Event} (ht : k s = .next t)
    (hadd : ∀ past, k (s.withPast past) = .next (t.withPast (past ++ evs))) : t.events = s.events ++ evs := by
  have h := ht.symm.trans (hadd s.events)
  injection h with h
  exact congrArg State.events h

theorem execIrqWait_stepAdds (t : BitVec 16) (s : State) : StepAdds (execIrqWait t) s := by
  have hfirst : Adds 0 (fun x => irqCheck { x with remaining := t }) s :=
    (irqCheck_adds _).comp (adds_nothing (f := fun x => { x with remaining := t }) fun _ => rfl)
  cases hp : s.pos with
  | check => exact (irqCheck_adds s).stepAdds (Nat.zero_le 1) fun _ => by simp only [execIrqWait, withPast_pos, hp]
  | waitTick => exact (irqTick_adds s).stepAdds le_rfl fun _ => by simp only [execIrqWait, withPast_pos, hp]
  | _ => exact hfirst.stepAdds (Nat.zero_le 1) fun _ => by simp only [execIrqWait, withPast_pos, hp]

theorem execCcWriteByte_stepAdds (b : Byte) (s : State) : StepAdds (execCcWriteByte b) s := by
  have hfirst : Adds 1 (fun x => putStep b .poll { x with polls := 0 }) s :=
    (putStep_adds b .poll _).comp (adds_nothing (f := fun x => { x with polls := 0 }) fun _ => rfl)
  cases hp : s.pos with
  | put h => exact (putStep_adds b h s).stepAdds le_rfl fun _ => by simp only [execCcWriteByte, withPast_pos, hp]
  | _ => exact hfirst.stepAdds le_rfl fun _ => by simp only [execCcWriteByte, withPast_pos, hp]

theorem execDmaProgram_stepAdds (addr count : Word32) (dir : Direction) (s : State) :
    StepAdds (execDmaProgram addr count dir) s := by
  cases hp : s.pos with
  | dma =>
    exact (dmaStep_adds addr count dir s.i s).stepAdds le_rfl fun _ => by
      simp only [execDmaProgram, withPast_pos, withPast_i, hp]
  | _ =>
    cases hc : dmaCheck addr count with
    | some reason =>
      exact (raiseFault_adds reason s).stepAdds (Nat.zero_le 1) fun _ => by
        simp only [execDmaProgram, withPast_pos, hp, hc]
    | none =>
      exact (dmaStep_adds addr count dir 0 s).stepAdds le_rfl fun _ => by
        simp only [execDmaProgram, withPast_pos, hp, hc]

theorem execGeoChsToLba_stepAdds (cyl : Word32) (head sec : Byte) (s : State) :
    StepAdds (execGeoChsToLba cyl head sec) s := by
  cases hl : lbaOf Config.spt cyl.toNat head.toNat sec.toNat with
  | some v =>
    exact (respond_adds .ok rbZero (BitVec.ofNat 32 v) 0 s).stepAdds (Nat.zero_le 1) fun _ => by
      simp only [execGeoChsToLba, hl]
  | none =>
    exact (respond_adds .invalidChs rbZero 0 0 s).stepAdds (Nat.zero_le 1) fun _ => by
      simp only [execGeoChsToLba, hl]

/-! ## One step -/

theorem exec_stepAdds (i : Instr) (s : State) : StepAdds (exec i) s := by
  rcases isExchange_or i with hx | ⟨t, rfl⟩ | ⟨b, rfl⟩ | ⟨lba, rfl⟩ | ⟨c, h, sec, rfl⟩ | ⟨a, c, d, rfl⟩ |
    ⟨a, b, c, rfl⟩ | rfl
  · exact (exchange_adds (commandPhase i) (resultCount i) (exchangeStatus i) s).stepAdds le_rfl fun _ =>
      exec_exchange i hx _
  · exact execIrqWait_stepAdds t s
  · exact execCcWriteByte_stepAdds b s
  · exact (respond_adds ..).stepAdds (Nat.zero_le 1) fun _ => rfl
  · exact execGeoChsToLba_stepAdds c h sec s
  · exact execDmaProgram_stepAdds a c d s
  · exact (respond_adds ..).stepAdds (Nat.zero_le 1) fun _ => rfl
  · exact (exchange_adds [] 0 alwaysOk s).stepAdds le_rfl fun _ => rfl

theorem hostTurn_stepAdds (s : State) : StepAdds hostTurn s := by
  cases hr : s.requests with
  | nil => exact stepAdds_of_fault (r := .awaitingRequest) (by simp only [hostTurn, hr])
  | cons q qs =>
    have hissue : Adds 0 (fun x => issue q { x with requests := qs }) s := adds_nothing fun _ => rfl
    exact hissue.stepAdds (Nat.zero_le 1) fun _ => by simp only [hostTurn, withPast_requests, hr]

theorem blockTurn_stepAdds (s : State) : StepAdds blockTurn s := by
  cases hp : s.phase with
  | idle => exact (hostTurn_stepAdds s).congr fun _ => by simp only [blockTurn, withPast_phase, hp]
  | faulted => exact stepAdds_of_fault (r := .awaitingReset) (by simp only [blockTurn, hp])
  | busy =>
    cases hf : fetch s with
    | run i => exact (exec_stepAdds i s).congr fun _ => by simp only [blockTurn, withPast_phase, withPast_fetch, hp, hf]
    | illegal =>
      exact (respond_adds .illegalRequest rbZero 0 0 s).stepAdds (Nat.zero_le 1) fun _ => by
        simp only [blockTurn, withPast_phase, withPast_fetch, hp, hf, refuseRequest]
    | lost => exact stepAdds_of_fault (r := .lostSequence) (by simp only [blockTurn, hp, hf])

/-- Every step adds events of which at most one is a primitive, and reads nothing of the history. -/
theorem step_stepAdds (s : State) : StepAdds step s := by
  have hturn : Adds 0 State.takeTurn s := adds_nothing fun _ => rfl
  cases ht : s.turn with
  | irq =>
    exact ((irqSignal_adds _).comp hturn).stepAdds (Nat.zero_le 1) fun _ => by simp only [step, withPast_turn, ht]
  | reset =>
    exact ((resetBlock_adds _).comp hturn).stepAdds (Nat.zero_le 1) fun _ => by simp only [step, withPast_turn, ht]
  | block =>
    have hblock : StepAdds (fun x => blockTurn x.takeTurn) s := blockTurn_stepAdds s.takeTurn
    exact hblock.congr fun _ => by simp only [step, withPast_turn, ht]

/-- Settles O53: the history that the step finds is one of those `step_stepAdds` speaks of. -/
theorem eachStepHoldsAtMostOnePrimitive : Obligations.EachStepHoldsAtMostOnePrimitive := by
  intro s t h
  obtain ⟨evs, hle, hadd⟩ := step_stepAdds s t h
  exact ⟨evs, events_eq_of_answers h hadd, hle⟩

/-- Settles O55: the step under another history is the other half of `step_stepAdds`. -/
theorem historyInfluencesNothing : Obligations.HistoryInfluencesNothing := by
  intro s t past h
  obtain ⟨evs, -, hadd⟩ := step_stepAdds s t h
  exact ⟨evs, events_eq_of_answers h hadd, hadd past⟩

end Sys2Proof.Machine
end

section
/-!
What one step does to the block's own state (O4, O5, O7, O22, O30, O48): which fields the steps of an operation keep
until it ends, and the four ways in which such a step leaves the state. Every statement about the latch, the fault, the
request or the queue is then a look at these cases.
-/

namespace Sys2Proof.Machine

/-! ## What the steps of an operation keep -/

/-- From s to t the operation stays in progress, and of the block's state only its local values and the history
change. -/
structure Keeps (s t : State) : Prop where
  phase : t.phase = s.phase
  irqFlag : t.irqFlag = s.irqFlag
  fault : t.fault = s.fault
  op : t.op = s.op
  schedule : t.schedule = s.schedule
  requests : t.requests = s.requests

/-- `Keeps`, and the DMA channel and the wait budget stay too: what SEND, READN and HS_WRITE do until they respond. -/
structure Quiet (s t : State) : Prop extends Keeps s t where
  dmac : t.dmac = s.dmac
  remaining : t.remaining = s.remaining

/-- What a step of a FIFO operation does: the operation goes on, or it responds. -/
inductive FifoStep (s : State) : State → Prop
  | goesOn {t : State} : Quiet s t → FifoStep s t
  | responds {s' : State} (st : Status) (rb : Bytes7) (rw0 rw1 : Word32) :
    Quiet s s' → FifoStep s (respond st rb rw0 rw1 s')

/-- The fields that `Quiet` leaves out may change. -/
theorem quiet_local_writes (s : State) (pos : Pos) (polls i reads : Nat) (cmd oracle : List Byte) (res : Bytes7)
    (events : List Event) :
    Quiet s { s with
      pos := pos, polls := polls, i := i, cmd := cmd, res := res, events := events, oracle := oracle, reads := reads } :=
  ⟨⟨rfl, rfl, rfl, rfl, rfl, rfl⟩, rfl, rfl⟩

theorem Quiet.refl (s : State) : Quiet s s := quiet_local_writes ..

theorem Quiet.trans {r s t : State} (hrs : Quiet r s) (hst : Quiet s t) : Quiet r t :=
  ⟨⟨hst.phase.trans hrs.phase, hst.irqFlag.trans hrs.irqFlag, hst.fault.trans hrs.fault, hst.op.trans hrs.op,
    hst.schedule.trans hrs.schedule, hst.requests.trans hrs.requests⟩, hst.dmac.trans hrs.dmac,
    hst.remaining.trans hrs.remaining⟩

/-- A step from a state that the operation reached quietly. -/
theorem FifoStep.of_quiet {r s t : State} (hrs : Quiet r s) (hst : FifoStep s t) : FifoStep r t := by
  cases hst with
  | goesOn h => exact .goesOn (hrs.trans h)
  | responds st rb rw0 rw1 h => exact .responds st rb rw0 rw1 (hrs.trans h)

theorem ioWrite8_fifo_quiet (v : Byte) (s : State) : Quiet s (ioWrite8 fifoPort v s) :=
  ⟨⟨rfl, rfl, rfl, rfl, rfl, rfl⟩, dmac_write_fifo s.dmac v, rfl⟩

/-! ## The FIFO operations -/

theorem handshake_fifoStep {want : Ready} {at_ : Handshake → Pos} {access expired : State → State} {s : State}
    (haccess : FifoStep s (access s)) (hexpired : ∀ x, FifoStep x (expired x)) (h : Handshake) :
    FifoStep s (handshake want at_ access expired h s) := by
  apply handshake_cases
  case ready => exact fun _ _ => .goesOn (quiet_local_writes ..)
  case out => exact fun _ _ _ => (hexpired _).of_quiet (quiet_local_writes ..)
  case again => exact fun _ _ _ => .goesOn (quiet_local_writes ..)
  case ticked => exact fun _ => .goesOn (quiet_local_writes ..)
  case accessed => exact fun _ => haccess

theorem sendAccess_fifoStep (cmd : List Byte) (n : Nat) (s : State) : FifoStep s (sendAccess cmd n s) := by
  have hwrite := ioWrite8_fifo_quiet (cmd.getD s.i 0) s
  unfold sendAccess
  split
  · exact .goesOn (hwrite.trans (quiet_local_writes ..))
  · split
    · exact .responds _ _ _ _ hwrite
    · exact .goesOn (hwrite.trans (quiet_local_writes ..))

theorem recvAccess_fifoStep (sent n : Nat) (done : Bytes7 → Status) (s : State) :
    FifoStep s (recvAccess sent n done s) := by
  unfold recvAccess
  split
  · exact .goesOn (quiet_local_writes ..)
  · exact .responds _ _ _ _ (quiet_local_writes ..)

theorem sendStep_fifoStep (cmd : List Byte) (n : Nat) (h : Handshake) (s : State) :
    FifoStep s (sendStep cmd n h s) :=
  handshake_fifoStep (sendAccess_fifoStep cmd n s) (fun _ => .responds _ _ _ _ (quiet_local_writes ..)) h

theorem recvStep_fifoStep (sent n : Nat) (done : Bytes7 → Status) (h : Handshake) (s : State) :
    FifoStep s (recvStep sent n done h s) :=
  handshake_fifoStep (recvAccess_fifoStep sent n done s) (fun x => .responds _ _ _ _ (.refl x)) h

theorem exchange_fifoStep (cmd : List Byte) (n : Nat) (done : Bytes7 → Status) (s : State) :
    FifoStep s (exchange cmd n done s) := by
  apply exchange_cases
  case sending =>
    rintro h s' (⟨-, rfl⟩ | ⟨-, -, rfl⟩)
    · exact sendStep_fifoStep cmd n h _
    · exact (sendStep_fifoStep cmd n h _).of_quiet (quiet_local_writes ..)
  case receiving =>
    rintro h s' (⟨-, rfl⟩ | ⟨-, -, rfl⟩)
    · exact recvStep_fifoStep cmd.length n done h _
    · exact (recvStep_fifoStep cmd.length n done h _).of_quiet (quiet_local_writes ..)

theorem putAccess_fifoStep (b : Byte) (s : State) : FifoStep s (putAccess b s) :=
  .responds _ _ _ _ (ioWrite8_fifo_quiet b s)

theorem putExpired_fifoStep (b : Byte) (s : State) : FifoStep s (putExpired b s) :=
  .responds _ _ _ _ (quiet_local_writes ..)

theorem putStep_fifoStep (b : Byte) (h : Handshake) (s : State) : FifoStep s (putStep b h s) :=
  handshake_fifoStep (putAccess_fifoStep b s) (putExpired_fifoStep b) h

/-- CC_WRITE_BYTE's step begins HS_WRITE unless SEQ is inside it. -/
theorem exec_ccWriteByte_fifoStep {b : Byte} {s t : State} (h : exec (.ccWriteByte b) s = .next t) : FifoStep s t := by
  obtain ⟨⟩ := h
  split
  · exact putStep_fifoStep b _ s
  · have hbegin : Quiet s { s with polls := 0 } := quiet_local_writes ..
    exact (putStep_fifoStep b .poll _).of_quiet hbegin

/-- Settles O30: until the response everything named is kept, and the response clears what O30 says it clears. -/
theorem fifoOperationsWriteNoBlockState : Obligations.FifoOperationsWriteNoBlockState := by
  intro i s t hi h
  have hstep : FifoStep s t := by
    obtain hx | ⟨b, rfl⟩ := hi
    · rw [exec_exchange i hx] at h
      obtain ⟨⟩ := h
      exact exchange_fifoStep ..
    · exact exec_ccWriteByte_fifoStep h
  cases hstep with
  | goesOn k => exact ⟨k.irqFlag, k.fault, k.dmac, k.schedule, k.requests, .inl ⟨k.phase, k.op, k.remaining⟩⟩
  | responds st rb rw0 rw1 k =>
    exact ⟨k.irqFlag, k.fault, k.dmac, k.schedule, k.requests, .inr ⟨rfl, rfl, rfl, rfl, rfl, rfl, rfl, rfl⟩⟩

/-! ## Every operation -/

/-- What a step of the operation that carries out q does: it goes on; it responds; its check of IRQ_WAIT returns, with
the latch cleared; or its first failing precondition of DMA_PROGRAM faults. -/
inductive OperationStep (q : Request) (s : State) : State → Prop
  | goesOn {t : State} : Keeps s t → OperationStep q s t
  | responds {s' : State} (st : Status) (rb : Bytes7) (rw0 rw1 : Word32) :
    Keeps s s' → OperationStep q s (respond st rb rw0 rw1 s')
  | waitReturns {τ : BitVec 16} (st : Status) (rb : Bytes7) : decodeRequest q = .ok (.irqWait τ) →
    OperationStep q s (respond st rb 0 0 { s with irqFlag := false })
  | faults {addr count : Word32} {dir : Direction} {reason : FaultReason} :
    decodeRequest q = .ok (.dmaProgram addr count dir) → dmaCheck addr count = some reason →
    OperationStep q s (raiseFault reason s)

theorem Keeps.refl (s : State) : Keeps s s := (Quiet.refl s).toKeeps

theorem FifoStep.operationStep {q : Request} {s t : State} (h : FifoStep s t) : OperationStep q s t := by
  cases h with
  | goesOn k => exact .goesOn k.toKeeps
  | responds st rb rw0 rw1 k => exact .responds st rb rw0 rw1 k.toKeeps

/-- The check, with the wait budget first set to r. -/
theorem irqCheck_operationStep {q : Request} {τ : BitVec 16} (hd : decodeRequest q = .ok (.irqWait τ)) (r : BitVec 16)
    (s : State) : OperationStep q s (irqCheck { s with remaining := r }) := by
  unfold irqCheck
  split
  · exact .waitReturns .ok (rbOf [1]) hd
  · split
    · exact .waitReturns .timeout (rbOf [0]) hd
    · exact .goesOn ⟨rfl, rfl, rfl, rfl, rfl, rfl⟩

theorem dmaStep_operationStep (q : Request) (addr count : Word32) (dir : Direction) (i : Nat) (s : State) :
    OperationStep q s (dmaStep addr count dir i s) := by
  unfold dmaStep
  split
  · split
    · exact .goesOn ⟨rfl, rfl, rfl, rfl, rfl, rfl⟩
    · exact .responds _ _ _ _ ⟨rfl, rfl, rfl, rfl, rfl, rfl⟩
  · exact .responds _ _ _ _ (.refl s)

theorem execIrqWait_operationStep {q : Request} {τ : BitVec 16} {s t : State}
    (hd : decodeRequest q = .ok (.irqWait τ)) (h : exec (.irqWait τ) s = .next t) : OperationStep q s t := by
  obtain ⟨⟩ := h
  split
  · exact irqCheck_operationStep hd s.remaining s
  · exact .goesOn ⟨rfl, rfl, rfl, rfl, rfl, rfl⟩
  · exact irqCheck_operationStep hd τ s

theorem execDmaProgram_operationStep {q : Request} {addr count : Word32} {dir : Direction} {s t : State}
    (hd : decodeRequest q = .ok (.dmaProgram addr count dir)) (h : exec (.dmaProgram addr count dir) s = .next t) :
    OperationStep q s t := by
  obtain ⟨⟩ := h
  split
  · exact dmaStep_operationStep ..
  · split
    · exact .faults hd ‹_›
    · exact dmaStep_operationStep ..

theorem execGeoChsToLba_operationStep {q : Request} {cyl : Word32} {head sec : Byte} {s t : State}
    (h : exec (.geoChsToLba cyl head sec) s = .next t) : OperationStep q s t := by
  obtain ⟨⟩ := h
  split <;> exact .responds _ _ _ _ (.refl s)

/-- The instruction is the request's own, or one that only SEND and READN carry out. -/
theorem exec_operationStep {q : Request} {i : Instr} {s t : State} (hi : isExchange i = true ∨ decodeRequest q = .ok i)
    (h : exec i s = .next t) : OperationStep q s t := by
  have hexchange : ∀ cmd n done, exchange cmd n done s = t → OperationStep q s t := fun cmd n done ht =>
    ht ▸ (exchange_fifoStep cmd n done s).operationStep
  rcases isExchange_or i with hx | ⟨τ, rfl⟩ | ⟨b, rfl⟩ | ⟨lba, rfl⟩ | ⟨c, hd, sec, rfl⟩ | ⟨a, c, d, rfl⟩ |
    ⟨a, b, c, rfl⟩ | rfl
  · rw [exec_exchange i hx] at h
    injection h with h
    exact hexchange _ _ _ h
  · exact execIrqWait_operationStep (hi.resolve_left Bool.false_ne_true) h
  · exact (exec_ccWriteByte_fifoStep h).operationStep
  · obtain ⟨⟩ := h
    exact .responds _ _ _ _ (.refl s)
  · exact execGeoChsToLba_operationStep h
  · exact execDmaProgram_operationStep (hi.resolve_left Bool.false_ne_true) h
  · obtain ⟨⟩ := h
    exact .responds _ _ _ _ (.refl s)
  · injection h with h
    exact hexchange _ _ _ h

/-- A command phase that decodes is one of the eight that SEND sends. -/
theorem isExchange_of_decodeCommand {bytes rest : List Byte} {c : Instr} (h : decodeCommand bytes = .ok (c, rest)) :
    isExchange c = true := by
  unfold decodeCommand at h
  repeat' split at h
  all_goals cases h <;> rfl

/-! ## The step of each agent -/

section

variable {s : State}

theorem step_of_irq (ht : s.turn = .irq) : step s = .next (irqSignal s.takeTurn) := by
  simp only [step, ht]

theorem step_of_reset (ht : s.turn = .reset) : step s = .next (resetBlock s.takeTurn) := by
  simp only [step, ht]

theorem step_of_issue {q : Request} {qs : List Request} (ht : s.turn = .block) (hp : s.phase = .idle)
    (hr : s.requests = q :: qs) : step s = .next (issue q { s.takeTurn with requests := qs }) := by
  simp only [step, ht, blockTurn, takeTurn_phase, hp, hostTurn, takeTurn_requests, hr]

theorem step_of_fetch {i : Instr} (ht : s.turn = .block) (hp : s.phase = .busy) (hf : fetch s.takeTurn = .run i) :
    step s = exec i s.takeTurn := by
  simp only [step, ht, blockTurn, takeTurn_phase, hp, hf]

theorem step_of_fetch_illegal (ht : s.turn = .block) (hp : s.phase = .busy) (hf : fetch s.takeTurn = .illegal) :
    step s = .next (refuseRequest s.takeTurn) := by
  simp only [step, ht, blockTurn, takeTurn_phase, hp, hf]

end

/-- Settles O5: outside SEND the request is fetched, inside it the command phase. -/
theorem stepRunsTheFetchedInstruction : Obligations.StepRunsTheFetchedInstruction :=
  ⟨fun _ _ _ ht hp ho hpos hd => step_of_fetch ht hp (fetch_of_request ho hpos hd),
    fun _ _ _ _ ht hp ho hpos hd => step_of_fetch ht hp (fetch_of_command ho hpos hd)⟩

/-! ## Every step -/

/-- Every step is IRQ's, RESET's, HOST's, or SEQ's, and SEQ's is a step of the operation that carries out the request. -/
theorem step_agent_cases {s t : State} (h : step s = .next t) :
    (s.turn = .irq ∧ t = irqSignal s.takeTurn) ∨
    (s.turn = .reset ∧ t = resetBlock s.takeTurn) ∨
    (s.turn = .block ∧ s.phase = .idle ∧
      ∃ q qs, s.requests = q :: qs ∧ t = issue q { s.takeTurn with requests := qs }) ∨
    (s.turn = .block ∧ s.phase = .busy ∧ ∃ q, s.op = some q ∧ OperationStep q s.takeTurn t) := by
  rcases step_cases h with h | h | h | ⟨ht, hp, q, ho, -, -, rfl⟩ | ⟨ht, hp, q, i, ho, -, hd, hx⟩ |
    ⟨ht, hp, q, hs, c, ho, -, hd, hx⟩
  · exact .inl h
  · exact .inr (.inl h)
  · exact .inr (.inr (.inl h))
  · exact .inr (.inr (.inr ⟨ht, hp, q, ho, .responds _ _ _ _ (.refl _)⟩))
  · exact .inr (.inr (.inr ⟨ht, hp, q, ho, exec_operationStep (.inr hd) hx⟩))
  · exact .inr (.inr (.inr ⟨ht, hp, q, ho, exec_operationStep (.inl (isExchange_of_decodeCommand hd)) hx⟩))

theorem OperationStep.requests_eq {q : Request} {s t : State} (h : OperationStep q s t) : t.requests = s.requests := by
  cases h with
  | goesOn k => exact k.requests
  | responds _ _ _ _ k => exact k.requests
  | waitReturns => rfl
  | faults => rfl

/-- Settles O4: the issue is HOST's case of `step`, and no agent but HOST writes the queue. -/
theorem hostIssuesExactlyWhenIdle : Obligations.HostIssuesExactlyWhenIdle := by
  constructor
  · exact fun s q qs ht hp hr => step_of_issue ht hp hr
  · intro s t h hp
    rcases step_agent_cases h with ⟨-, rfl⟩ | ⟨-, rfl⟩ | ⟨-, hidle, -⟩ | ⟨-, -, q, -, hop⟩
    · rw [irqSignal_eq]; rfl
    · rfl
    · exact absurd hidle hp
    · exact hop.requests_eq

/-- Settles O7: an operation that goes on keeps its request, and every end of one drops it. -/
theorem oneOperationAtATime : Obligations.OneOperationAtATime := by
  intro s t hp h
  rcases step_agent_cases h with ⟨-, rfl⟩ | ⟨-, rfl⟩ | ⟨-, hidle, -⟩ | ⟨-, -, q, -, hop⟩
  · rw [irqSignal_eq]
    exact ⟨fun _ => rfl, fun hn => absurd hp hn⟩
  · exact ⟨nofun, fun _ => rfl⟩
  · simp [hp] at hidle
  · cases hop with
    | goesOn k => exact ⟨fun _ => k.op, fun hn => absurd (k.phase.trans hp) hn⟩
    | _ => exact ⟨nofun, fun _ => rfl⟩

/-- Settles O22: of the steps of an operation only the returning check of IRQ_WAIT writes the latch. -/
theorem onlySignalResetAndReturningChecksWriteTheLatch :
    Obligations.OnlySignalResetAndReturningChecksWriteTheLatch := by
  intro s t h hne
  rcases step_agent_cases h with ⟨ht, rfl⟩ | ⟨ht, rfl⟩ | ⟨-, -, q, qs, -, rfl⟩ | ⟨ht, -, q, ho, hop⟩
  · exact .inl ⟨ht, by rw [irqSignal_eq]⟩
  · exact .inr (.inl ⟨ht, rfl⟩)
  · exact absurd rfl hne
  · cases hop with
    | goesOn k => exact absurd k.irqFlag hne
    | responds _ _ _ _ k => exact absurd k.irqFlag hne
    | waitReturns _ _ hd => exact .inr (.inr ⟨ht, rfl, rfl, q, _, ho, hd⟩)
    | faults => exact absurd rfl hne

/-- Settles O48: of the steps of an operation only DMA_PROGRAM's fault writes S.fault. -/
theorem onlyDmaProgramAndResetWriteTheFault : Obligations.OnlyDmaProgramAndResetWriteTheFault := by
  intro s t h hne
  rcases step_agent_cases h with ⟨-, rfl⟩ | ⟨ht, rfl⟩ | ⟨-, -, q, qs, -, rfl⟩ | ⟨ht, -, q, ho, hop⟩
  · exact absurd (by rw [irqSignal_eq]; rfl) hne
  · exact .inl ⟨ht, rfl⟩
  · exact absurd rfl hne
  · cases hop with
    | goesOn k => exact absurd k.fault hne
    | responds _ _ _ _ k => exact absurd k.fault hne
    | waitReturns => exact absurd rfl hne
    | faults hd hc => exact .inr ⟨ht, rfl, q, _, _, _, ho, hd, hc⟩

end Sys2Proof.Machine
end

section
/-!
The invariant (O6, O45) and the first step of an exchange (O23). In a state that meets the invariant the step on the
block's turn in BUSY is exec of the held request; so O45 needs only that exec leaves SEQ at a statement of that request,
which is proved of each shared operation. The rest of the invariant follows from the cases of `OperationStep`.
-/

namespace Sys2Proof.Machine

/-! ## The first step of an exchange -/

/-- HS_POLL's first MSR read cannot be its last. -/
theorem handshake_first_poll {want : Ready} {at_ : Handshake → Pos} {access expired : State → State} {s : State}
    (h : s.polls = 0) :
    handshake want at_ access expired .poll s =
      { ioRead8 msrPort s with pos := if s.answer.extractLsb' 6 2 = want.pattern then at_ .access else at_ .tick } := by
  have hlimit : s.polls ≠ Config.pollLimit := by rw [h]; decide
  by_cases hm : s.answer.extractLsb' 6 2 = want.pattern <;> simp [handshake, msrReady, msrBits, hm, hlimit]

/-- Settles O23: the exchange begins SEND, or READN when it sends nothing, and so polls for the first time. -/
theorem exchangesBeginWithAStatusRead : Obligations.ExchangesBeginWithAStatusRead := by
  intro i s hx hpos
  rw [exec_exchange i hx]
  constructor
  · intro hcmd
    obtain ⟨b, bs, hcmd⟩ := List.exists_cons_of_ne_nil hcmd
    simp only [exchange, hpos, hcmd, sendStep]
    rw [handshake_first_poll] <;> rfl
  · intro hcmd
    simp only [exchange, hpos, hcmd, recvStep]
    rw [handshake_first_poll] <;> rfl

/-! ## What a decoded request satisfies -/

theorem wellFormed_of_whenZero {zero : Bool} {i j : Instr} (h : whenZero zero i = .ok j) (hi : i.wellFormed = true) :
    j.wellFormed = true := by
  unfold whenZero at h
  split at h
  · cases h; exact hi
  · cases h

/-- Only the count of SEQ_READ_RESULT is ever checked (R85 (c)), and the decoder checks it. -/
theorem wellFormed_of_decodeRequest {q : Request} {i : Instr} (h : decodeRequest q = .ok i) : i.wellFormed = true := by
  unfold decodeRequest at h
  split at h
  · unfold decodeFields at h
    split at h
    case h_12 =>
      split at h
      · split at h
        · cases h
          simpa [Instr.wellFormed] using ‹_ ∧ _›
        · cases h
      · cases h
    case h_17 => cases h
    all_goals exact wellFormed_of_whenZero h rfl
  · cases h

theorem resultCount_le_seven {i : Instr} (h : i.wellFormed = true) : resultCount i ≤ 7 := by
  cases i with
  | seqReadResult n =>
    simp only [Instr.wellFormed, Bool.and_eq_true, decide_eq_true_eq] at h
    exact h.2
  | _ => simp [resultCount]

/-! ## The command phase that SEND carries out -/

theorem decodeCommand_commandPhase {i c : Instr} (h : commandOf i = some c) :
    decodeCommand (commandPhase i) = .ok (c, []) := by
  cases i <;> cases h <;> rfl

/-- The step of a command phase is that of the instruction that sends it (log entry 7). -/
theorem exec_commandOf {i c : Instr} (h : commandOf i = some c) (s : State) : exec c s = exec i s := by
  cases i <;> cases h <;> rfl

theorem commandOf_of_mem_commandPhase {i : Instr} {k : Nat} (h : k < (commandPhase i).length) :
    ∃ c, commandOf i = some c := by
  cases hc : commandOf i with
  | some c => exact ⟨c, rfl⟩
  | none => simp [commandPhase, hc] at h

/-! ## The statements of an instruction -/

/-- `AtStatement` with the request decoded. -/
def AtStatementOf (i : Instr) (s : State) : Prop :=
  match s.pos with
  | .first => Cleared s
  | .check => ∃ t, i = .irqWait t ∧ s.remaining.toNat < t.toNat
  | .waitTick => ∃ t, i = .irqWait t ∧ 0 < s.remaining.toNat ∧ s.remaining.toNat ≤ t.toNat
  | .put h => ∃ b, i = .ccWriteByte b ∧ PollsOk h s
  | .send h => s.cmd = commandPhase i ∧ s.i < s.cmd.length ∧ PollsOk h s
  | .recv h =>
    s.cmd = commandPhase i ∧ s.i < resultCount i ∧ resultCount i ≤ 7 ∧ PollsOk h s ∧
      ∀ j : Fin 7, s.i ≤ j.val → s.res[j] = if j.val < resultCount i then Config.readSentinel else 0
  | .dma =>
    ∃ addr count dir, i = .dmaProgram addr count dir ∧ dmaCheck addr count = none ∧ 0 < s.i ∧ s.i < 10

theorem atStatement_iff {q : Request} {i : Instr} (hd : decodeRequest q = .ok i) (s : State) :
    AtStatement q s ↔ AtStatementOf i s := by
  unfold AtStatement AtStatementOf
  cases s.pos <;> simp [hd]

theorem atStatementOf_put {i : Instr} {h : Handshake} {s : State} (hpos : s.pos = .put h) :
    AtStatementOf i s ↔ ∃ b, i = .ccWriteByte b ∧ PollsOk h s := by
  simp only [AtStatementOf, hpos]

theorem atStatementOf_send {i : Instr} {h : Handshake} {s : State} (hpos : s.pos = .send h) :
    AtStatementOf i s ↔ s.cmd = commandPhase i ∧ s.i < s.cmd.length ∧ PollsOk h s := by
  simp only [AtStatementOf, hpos]

theorem atStatementOf_recv {i : Instr} {h : Handshake} {s : State} (hpos : s.pos = .recv h) :
    AtStatementOf i s ↔ s.cmd = commandPhase i ∧ s.i < resultCount i ∧ resultCount i ≤ 7 ∧ PollsOk h s ∧
      ∀ j : Fin 7, s.i ≤ j.val → s.res[j] = if j.val < resultCount i then Config.readSentinel else 0 := by
  simp only [AtStatementOf, hpos]

/-- After a response no local value is held. -/
theorem cleared_respond (st : Status) (rb : Bytes7) (rw0 rw1 : Word32) (s : State) :
    Cleared (respond st rb rw0 rw1 s) :=
  ⟨rfl, rfl, rfl, rfl, rfl, rfl⟩

theorem cleared_raiseFault (reason : FaultReason) (s : State) : Cleared (raiseFault reason s) :=
  ⟨rfl, rfl, rfl, rfl, rfl, rfl⟩

/-- The first statement of every instruction starts from no local values. -/
theorem Cleared.atStatementOf {s : State} (h : Cleared s) (i : Instr) : AtStatementOf i s := by
  simpa only [AtStatementOf, h.1] using h

theorem Cleared.atStatement {s : State} (h : Cleared s) (q : Request) : AtStatement q s := by
  simpa only [AtStatement, h.1] using h

/-! ## exec leaves SEQ at a statement of its instruction -/

/-- A handshake keeps its poll counter in range, and changes no local value but the counter until it expires or makes
its FIFO access. -/
theorem handshake_within {want : Ready} {at_ : Handshake → Pos} {access expired : State → State} {h : Handshake}
    {s : State} {P : State → Prop} (hpolls : PollsOk h s)
    (inside : ∀ h' t, t.pos = at_ h' → PollsOk h' t → t.i = s.i → t.cmd = s.cmd → t.res = s.res → P t)
    (expires : P (expired (ioRead8 msrPort s))) (accesses : P (access s)) :
    P (handshake want at_ access expired h s) := by
  apply handshake_cases
  case ready =>
    rintro rfl -
    exact inside .access _ rfl hpolls rfl rfl rfl
  case out => exact fun _ _ _ => expires
  case again =>
    rintro rfl - hne
    exact inside .tick _ rfl (Nat.lt_of_le_of_ne hpolls hne) rfl rfl rfl
  case ticked =>
    rintro rfl
    exact inside .poll _ rfl hpolls rfl rfl rfl
  case accessed => exact fun _ => accesses

theorem startSend_atStatementOf {i : Instr} (h : commandPhase i ≠ []) (s : State) :
    AtStatementOf i (startSend (commandPhase i) s) :=
  ⟨rfl, List.length_pos_iff.mpr h, Nat.zero_le _⟩

theorem startRecv_atStatementOf {i : Instr} {s : State} (hcmd : s.cmd = commandPhase i) (h0 : resultCount i ≠ 0)
    (h7 : resultCount i ≤ 7) : AtStatementOf i (startRecv (resultCount i) s) :=
  ⟨hcmd, Nat.pos_of_ne_zero h0, h7, Nat.zero_le _, fun j _ => by simp [startRecv, rbUnread]⟩

theorem sendAccess_atStatementOf {i : Instr} {s : State} (hcmd : s.cmd = commandPhase i) (h7 : resultCount i ≤ 7) :
    AtStatementOf i (sendAccess (commandPhase i) (resultCount i) s) := by
  unfold sendAccess
  split
  next hmore => exact ⟨hcmd, hcmd ▸ hmore, Nat.zero_le _⟩
  next =>
    split
    · exact (cleared_respond ..).atStatementOf i
    · exact startRecv_atStatementOf hcmd ‹_› h7

theorem sendStep_atStatementOf {i : Instr} {h : Handshake} {s : State} (hpos : s.pos = .send h)
    (hs : AtStatementOf i s) (h7 : resultCount i ≤ 7) :
    AtStatementOf i (sendStep (commandPhase i) (resultCount i) h s) := by
  obtain ⟨hcmd, hi, hpolls⟩ := (atStatementOf_send hpos).mp hs
  refine handshake_within hpolls ?_ ((cleared_respond ..).atStatementOf i) (sendAccess_atStatementOf hcmd h7)
  intro h' t hpos' hpolls' hti htcmd _
  exact (atStatementOf_send hpos').mpr ⟨htcmd.trans hcmd, by rw [hti, htcmd]; exact hi, hpolls'⟩

/-- The bytes of res beyond the one just read are still unread. -/
theorem recvAccess_atStatementOf {i : Instr} {h : Handshake} {s : State} (hpos : s.pos = .recv h)
    (hs : AtStatementOf i s) (sent : Nat) (done : Bytes7 → Status) :
    AtStatementOf i (recvAccess sent (resultCount i) done s) := by
  obtain ⟨hcmd, -, h7, -, hres⟩ := (atStatementOf_recv hpos).mp hs
  unfold recvAccess
  split
  next hmore =>
    refine ⟨hcmd, hmore, h7, Nat.zero_le _, fun j hj => ?_⟩
    have hj : s.i + 1 ≤ j.val := hj
    rw [← hres j (by omega)]
    exact Vector.getElem_setIfInBounds_ne j.isLt (by omega)
  next => exact (cleared_respond ..).atStatementOf i

theorem recvStep_atStatementOf {i : Instr} {h : Handshake} {s : State} (hpos : s.pos = .recv h)
    (hs : AtStatementOf i s) (sent : Nat) (done : Bytes7 → Status) :
    AtStatementOf i (recvStep sent (resultCount i) done h s) := by
  obtain ⟨hcmd, hi, h7, hpolls, hres⟩ := (atStatementOf_recv hpos).mp hs
  refine handshake_within hpolls ?_ ((cleared_respond ..).atStatementOf i) (recvAccess_atStatementOf hpos hs sent done)
  intro h' t hpos' hpolls' hti htcmd htres
  refine (atStatementOf_recv hpos').mpr ⟨htcmd.trans hcmd, hti ▸ hi, h7, hpolls', fun j hj => ?_⟩
  rw [htres]
  exact hres j (hti ▸ hj)

/-- At every statement of an instruction that only reads result bytes, no command byte is held. -/
theorem AtStatementOf.cmd_eq_nil {i : Instr} {s : State} (hs : AtStatementOf i s) (hx : isExchange i = true)
    (hnil : commandPhase i = []) : s.cmd = [] := by
  cases hpos : s.pos with
  | send h =>
    obtain ⟨hcmd, -⟩ := (atStatementOf_send hpos).mp hs
    exact hcmd.trans hnil
  | recv h =>
    obtain ⟨hcmd, -⟩ := (atStatementOf_recv hpos).mp hs
    exact hcmd.trans hnil
  | first =>
    simp only [AtStatementOf, hpos] at hs
    obtain ⟨-, -, -, -, hcmd, -⟩ := hs
    exact hcmd
  | dma =>
    simp only [AtStatementOf, hpos] at hs
    obtain ⟨addr, count, dir, rfl, -⟩ := hs
    cases hx
  | _ =>
    simp only [AtStatementOf, hpos] at hs
    obtain ⟨_, rfl, -⟩ := hs
    cases hx

theorem exchange_atStatementOf {i : Instr} {s : State} (hs : AtStatementOf i s) (hx : isExchange i = true)
    (h7 : resultCount i ≤ 7) (done : Bytes7 → Status) :
    AtStatementOf i (exchange (commandPhase i) (resultCount i) done s) := by
  apply exchange_cases
  case sending =>
    rintro h s' (⟨hpos, rfl⟩ | ⟨hne, rfl, rfl⟩)
    · exact sendStep_atStatementOf hpos hs h7
    · exact sendStep_atStatementOf rfl (startSend_atStatementOf hne s) h7
  case receiving =>
    rintro h s' (⟨hpos, rfl⟩ | ⟨hnil, rfl, rfl⟩)
    · exact recvStep_atStatementOf hpos hs _ done
    · have hcount : resultCount i ≠ 0 := by simpa [isExchange, hnil] using hx
      have hcmd : s.cmd = commandPhase i := (hs.cmd_eq_nil hx hnil).trans hnil.symm
      exact recvStep_atStatementOf rfl (startRecv_atStatementOf hcmd hcount h7) _ done

theorem irqCheck_atStatementOf {t : BitVec 16} {s : State} (h : s.remaining.toNat ≤ t.toNat) :
    AtStatementOf (.irqWait t) (irqCheck s) := by
  unfold irqCheck
  split
  next => exact (cleared_respond ..).atStatementOf _
  next =>
    split
    next => exact (cleared_respond ..).atStatementOf _
    next hne => exact ⟨t, rfl, Nat.pos_of_ne_zero fun h0 => hne (BitVec.eq_of_toNat_eq h0), h⟩

theorem irqTick_atStatementOf {t : BitVec 16} {s : State} (h0 : 0 < s.remaining.toNat)
    (h : s.remaining.toNat ≤ t.toNat) : AtStatementOf (.irqWait t) (irqTick s) := by
  have hlt : (s.remaining - 1).toNat < t.toNat := by bv_omega
  exact ⟨t, rfl, hlt⟩

theorem execIrqWait_atStatementOf {τ : BitVec 16} {s t : State} (hs : AtStatementOf (.irqWait τ) s)
    (h : exec (.irqWait τ) s = .next t) : AtStatementOf (.irqWait τ) t := by
  obtain ⟨⟩ := h
  split
  next hpos =>
    simp only [AtStatementOf, hpos, Instr.irqWait.injEq, exists_eq_left'] at hs
    exact irqCheck_atStatementOf hs.le
  next hpos =>
    simp only [AtStatementOf, hpos, Instr.irqWait.injEq, exists_eq_left'] at hs
    exact irqTick_atStatementOf hs.1 hs.2
  next => exact irqCheck_atStatementOf le_rfl

theorem putStep_atStatementOf {b : Byte} {h : Handshake} {s : State} (hpolls : PollsOk h s) :
    AtStatementOf (.ccWriteByte b) (putStep b h s) :=
  handshake_within hpolls (fun _ _ hpos hpolls' _ _ _ => (atStatementOf_put hpos).mpr ⟨b, rfl, hpolls'⟩)
    ((cleared_respond ..).atStatementOf _) ((cleared_respond ..).atStatementOf _)

theorem execCcWriteByte_atStatementOf {b : Byte} {s t : State} (hs : AtStatementOf (.ccWriteByte b) s)
    (h : exec (.ccWriteByte b) s = .next t) : AtStatementOf (.ccWriteByte b) t := by
  obtain ⟨⟩ := h
  split
  next hpos =>
    obtain ⟨-, -, hpolls⟩ := (atStatementOf_put hpos).mp hs
    exact putStep_atStatementOf hpolls
  next => exact putStep_atStatementOf (Nat.zero_le _)

theorem dmaStep_atStatementOf {addr count : Word32} (hc : dmaCheck addr count = none) (dir : Direction) (i : Nat)
    (s : State) : AtStatementOf (.dmaProgram addr count dir) (dmaStep addr count dir i s) := by
  unfold dmaStep
  split
  next =>
    split
    next hmore => exact ⟨addr, count, dir, rfl, hc, Nat.succ_pos i, hmore⟩
    next => exact (cleared_respond ..).atStatementOf _
  next => exact (cleared_respond ..).atStatementOf _

theorem execDmaProgram_atStatementOf {addr count : Word32} {dir : Direction} {s t : State}
    (hs : AtStatementOf (.dmaProgram addr count dir) s) (h : exec (.dmaProgram addr count dir) s = .next t) :
    AtStatementOf (.dmaProgram addr count dir) t := by
  obtain ⟨⟩ := h
  split
  next hpos =>
    simp only [AtStatementOf, hpos] at hs
    obtain ⟨_, _, _, ⟨⟩, hc, -⟩ := hs
    exact dmaStep_atStatementOf hc ..
  next =>
    split
    next => exact (cleared_raiseFault ..).atStatementOf _
    next hc => exact dmaStep_atStatementOf hc ..

theorem exec_atStatementOf {i : Instr} {s t : State} (hi : i.wellFormed = true) (hs : AtStatementOf i s)
    (h : exec i s = .next t) : AtStatementOf i t := by
  rcases isExchange_or i with hx | ⟨τ, rfl⟩ | ⟨b, rfl⟩ | ⟨lba, rfl⟩ | ⟨c, hd, sec, rfl⟩ | ⟨a, c, d, rfl⟩ |
    ⟨a, b, c, rfl⟩ | rfl
  · rw [exec_exchange i hx] at h
    obtain ⟨⟩ := h
    exact exchange_atStatementOf hs hx (resultCount_le_seven hi) _
  · exact execIrqWait_atStatementOf hs h
  · exact execCcWriteByte_atStatementOf hs h
  · obtain ⟨⟩ := h
    exact (cleared_respond ..).atStatementOf _
  · obtain ⟨⟩ := h
    split <;> exact (cleared_respond ..).atStatementOf _
  · exact execDmaProgram_atStatementOf hs h
  · obtain ⟨⟩ := h
    exact (cleared_respond ..).atStatementOf _
  · cases hi

/-! ## The step in a state that meets the invariant -/

/-- Settles O6: inside SEND the invariant makes `cmd` the command phase of the request, whose step is the request's. -/
theorem everyStatementIsAStepOfTheRequest : Obligations.EveryStatementIsAStepOfTheRequest := by
  intro s q i hs ht ho hd
  have hp : s.phase = .busy := hs.busy_iff_op.mpr (by simp [ho])
  cases hpos : s.pos with
  | send h =>
    have hstmt := (atStatement_iff hd s).mp (hs.at_statement q ho)
    obtain ⟨hcmd, hi, -⟩ := (atStatementOf_send hpos).mp hstmt
    obtain ⟨c, hc⟩ := commandOf_of_mem_commandPhase (hcmd ▸ hi)
    have hfetch : fetch s.takeTurn = .run c :=
      fetch_of_command ho hpos (by rw [takeTurn_cmd, hcmd, decodeCommand_commandPhase hc])
    rw [step_of_fetch ht hp hfetch, exec_commandOf hc]
  | _ => exact step_of_fetch ht hp (fetch_of_request ho (by simp [hpos]) hd)

/-- An illegal request word is at its first statement, and its one step responds; any other request is carried out by
`exec`. -/
theorem step_atStatement {s t : State} {q : Request} (hs : Consistent s) (ht : s.turn = .block) (hp : s.phase = .busy)
    (ho : s.op = some q) (h : step s = .next t) : AtStatement q t := by
  have hstmt : AtStatement q s := hs.at_statement q ho
  cases hd : decodeRequest q with
  | ok i =>
    rw [everyStatementIsAStepOfTheRequest s q i hs ht ho hd] at h
    have hnow : AtStatementOf i s.takeTurn := (atStatement_iff hd s.takeTurn).mp hstmt
    exact (atStatement_iff hd t).mpr (exec_atStatementOf (wellFormed_of_decodeRequest hd) hnow h)
  | error e =>
    have hpos : ∀ h, s.pos ≠ .send h := fun h hsend => by simp [AtStatement, hsend, hd] at hstmt
    rw [step_of_fetch_illegal ht hp (fetch_of_illegal ho hpos hd)] at h
    obtain ⟨⟩ := h
    exact (cleared_respond ..).atStatement q

/-! ## The invariant -/

theorem consistent_of_busy {s : State} {q : Request} (hp : s.phase = .busy) (ho : s.op = some q)
    (hf : s.fault = .none) (h : AtStatement q s) : Consistent s where
  busy_iff_op := by simp [hp, ho]
  faulted_iff_fault := by simp [hp, hf]
  cleared hn := absurd hp hn
  at_statement q' hq' := by
    obtain rfl : q = q' := by rwa [ho, Option.some.injEq] at hq'
    exact h

theorem consistent_of_no_operation {s : State} (hp : s.phase ≠ .busy) (ho : s.op = none)
    (hf : s.phase = .faulted ↔ s.fault ≠ .none) (h : Cleared s) : Consistent s where
  busy_iff_op := by simp [hp, ho]
  faulted_iff_fault := hf
  cleared _ := h
  at_statement q hq := by simp [ho] at hq

theorem Consistent.fault_eq_none {s : State} (hs : Consistent s) (hp : s.phase ≠ .faulted) : s.fault = .none := by
  simpa [hp] using hs.faulted_iff_fault

/-- A failed precondition names a reason. -/
theorem dmaCheck_ne_none {addr count : Word32} {reason : FaultReason} (h : dmaCheck addr count = some reason) :
    reason ≠ .none := by
  rintro rfl
  unfold dmaCheck at h
  split_ifs at h <;> cases h

theorem consistent_irqSignal {s : State} (hs : Consistent s) : Consistent (irqSignal s.takeTurn) := by
  rw [irqSignal_eq]
  exact ⟨hs.busy_iff_op, hs.faulted_iff_fault, hs.cleared, hs.at_statement⟩

theorem consistent_resetBlock (s : State) : Consistent (resetBlock s) :=
  consistent_of_no_operation nofun rfl ⟨nofun, fun h => absurd rfl h⟩ ⟨rfl, rfl, rfl, rfl, rfl, rfl⟩

/-- HOST issues from IDLE, where no local value is held, so SEQ is at the first statement. -/
theorem consistent_issue {s : State} (hs : Consistent s) (hp : s.phase = .idle) (q : Request) (qs : List Request) :
    Consistent (issue q { s.takeTurn with requests := qs }) := by
  have hc : Cleared s := hs.cleared (by simp [hp])
  have hc' : Cleared (issue q { s.takeTurn with requests := qs }) := hc
  exact consistent_of_busy rfl rfl (hs.fault_eq_none (by simp [hp])) (hc'.atStatement q)

theorem OperationStep.consistent {q : Request} {s t : State} (hop : OperationStep q s t) (hp : s.phase = .busy)
    (ho : s.op = some q) (hf : s.fault = .none) (hstmt : AtStatement q t) : Consistent t := by
  cases hop with
  | goesOn k => exact consistent_of_busy (k.phase.trans hp) (k.op.trans ho) (k.fault.trans hf) hstmt
  | responds _ _ _ _ k =>
    exact consistent_of_no_operation nofun rfl ⟨nofun, fun h => absurd (k.fault.trans hf) h⟩ (cleared_respond ..)
  | waitReturns => exact consistent_of_no_operation nofun rfl ⟨nofun, fun h => absurd hf h⟩ (cleared_respond ..)
  | faults _ hc =>
    exact consistent_of_no_operation nofun rfl ⟨fun _ => dmaCheck_ne_none hc, fun _ => rfl⟩ (cleared_raiseFault ..)

/-- Settles O45, agent by agent. -/
theorem everyStepKeepsTheInvariant : Obligations.EveryStepKeepsTheInvariant := by
  intro s t hs h
  rcases step_agent_cases h with ⟨-, rfl⟩ | ⟨-, rfl⟩ | ⟨-, hp, q, qs, -, rfl⟩ | ⟨ht, hp, q, ho, hop⟩
  · exact consistent_irqSignal hs
  · exact consistent_resetBlock _
  · exact consistent_issue hs hp q qs
  · exact hop.consistent hp ho (hs.fault_eq_none (by simp [hp])) (step_atStatement hs ht hp ho h)

end Sys2Proof.Machine
end

section
/-!
The DMA registers are never read (O54): every update of the state does the same with other registers in their place,
but for the registers' own new values.
-/

namespace Sys2Proof.Machine

/-- The state with other DMA registers. -/
def State.withDmac (d : Dmac) (s : State) : State := { s with dmac := d }

@[simp] theorem withDmac_pos (d : Dmac) (s : State) : (s.withDmac d).pos = s.pos := rfl
@[simp] theorem withDmac_i (d : Dmac) (s : State) : (s.withDmac d).i = s.i := rfl

/-- From s, the update does the same whatever the DMA registers hold, but for their own new values. -/
def IgnoresDmac (f : State → State) (s : State) : Prop := ∀ d, ∃ d', f (s.withDmac d) = (f s).withDmac d'

/-- A branch on a condition that does not look at the registers. -/
theorem IgnoresDmac.ite {f g : State → State} {s : State} {c : State → Prop} [∀ x, Decidable (c x)]
    (hc : ∀ d, c (s.withDmac d) ↔ c s) (hf : IgnoresDmac f s) (hg : IgnoresDmac g s) :
    IgnoresDmac (fun x => if c x then f x else g x) s := by
  intro d
  by_cases h : c s
  · simpa [h, hc d] using hf d
  · simpa [h, hc d] using hg d

theorem respond_ignoresDmac (st : Status) (rb : Bytes7) (rw0 rw1 : Word32) (s : State) :
    IgnoresDmac (respond st rb rw0 rw1) s := fun d => ⟨d, rfl⟩

/-! ## The handshake, SEND and READN -/

theorem handshake_ignoresDmac {want : Ready} {at_ : Handshake → Pos} {access expired : State → State} {s : State}
    (haccess : IgnoresDmac access s) (hexpired : IgnoresDmac expired (ioRead8 msrPort s)) (h : Handshake) :
    IgnoresDmac (handshake want at_ access expired h) s := by
  cases h with
  | poll => exact .ite (fun _ => Iff.rfl) (fun d => ⟨d, rfl⟩) (.ite (fun _ => Iff.rfl) hexpired fun d => ⟨d, rfl⟩)
  | tick => exact fun d => ⟨d, rfl⟩
  | access => exact haccess

theorem sendAccess_ignoresDmac (cmd : List Byte) (n : Nat) (s : State) : IgnoresDmac (sendAccess cmd n) s :=
  .ite (fun _ => Iff.rfl) (fun _ => ⟨_, rfl⟩) (.ite (fun _ => Iff.rfl) (fun _ => ⟨_, rfl⟩) fun _ => ⟨_, rfl⟩)

theorem sendStep_ignoresDmac (cmd : List Byte) (n : Nat) (h : Handshake) (s : State) :
    IgnoresDmac (sendStep cmd n h) s :=
  handshake_ignoresDmac (sendAccess_ignoresDmac cmd n s) (fun d => ⟨d, rfl⟩) h

theorem recvAccess_ignoresDmac (sent n : Nat) (done : Bytes7 → Status) (s : State) :
    IgnoresDmac (recvAccess sent n done) s :=
  .ite (fun _ => Iff.rfl) (fun d => ⟨d, rfl⟩) fun d => ⟨d, rfl⟩

theorem recvStep_ignoresDmac (sent n : Nat) (done : Bytes7 → Status) (h : Handshake) (s : State) :
    IgnoresDmac (recvStep sent n done h) s :=
  handshake_ignoresDmac (recvAccess_ignoresDmac sent n done s) (fun d => ⟨d, rfl⟩) h

theorem exchange_ignoresDmac (cmd : List Byte) (n : Nat) (done : Bytes7 → Status) (s : State) :
    IgnoresDmac (exchange cmd n done) s := by
  intro d
  cases hp : s.pos with
  | send h => simp only [exchange, withDmac_pos, hp]; exact sendStep_ignoresDmac cmd n h s d
  | recv h => simp only [exchange, withDmac_pos, hp]; exact recvStep_ignoresDmac cmd.length n done h s d
  | _ =>
    cases cmd with
    | nil => simp only [exchange, withDmac_pos, hp]; exact recvStep_ignoresDmac 0 n done .poll (startRecv n s) d
    | cons b bs =>
      simp only [exchange, withDmac_pos, hp]; exact sendStep_ignoresDmac (b :: bs) n .poll (startSend (b :: bs) s) d

/-! ## The other instructions -/

theorem putStep_ignoresDmac (b : Byte) (h : Handshake) (s : State) : IgnoresDmac (putStep b h) s :=
  handshake_ignoresDmac (fun _ => ⟨_, rfl⟩) (fun d => ⟨d, rfl⟩) h

theorem irqCheck_ignoresDmac (s : State) : IgnoresDmac irqCheck s :=
  .ite (fun _ => Iff.rfl) (fun d => ⟨d, rfl⟩) (.ite (fun _ => Iff.rfl) (fun d => ⟨d, rfl⟩) fun d => ⟨d, rfl⟩)

/-- The registers are written here, and their new values depend on the old; nothing else does. -/
theorem dmaStep_ignoresDmac (addr count : Word32) (dir : Direction) (i : Nat) (s : State) :
    IgnoresDmac (dmaStep addr count dir i) s := by
  intro d
  unfold dmaStep
  split
  · split <;> exact ⟨_, rfl⟩
  · exact ⟨d, rfl⟩

/-- `IgnoresDmac` of a step that may stop. -/
def StepIgnoresDmac (k : State → Host.Outcome State Fault Refusal) (s : State) : Prop :=
  ∀ t d, k s = .next t → ∃ d', k (s.withDmac d) = .next (t.withDmac d')

theorem IgnoresDmac.step {f : State → State} {s : State} (hf : IgnoresDmac f s) :
    StepIgnoresDmac (fun x => .next (f x)) s := by
  intro t d h
  obtain ⟨⟩ := h
  obtain ⟨d', hd'⟩ := hf d
  exact ⟨d', congrArg Host.Outcome.next hd'⟩

theorem execIrqWait_ignoresDmac (τ : BitVec 16) (s : State) : StepIgnoresDmac (execIrqWait τ) s := by
  refine IgnoresDmac.step fun d => ?_
  cases hp : s.pos with
  | check => simp only [withDmac_pos, hp]; exact irqCheck_ignoresDmac s d
  | waitTick => simp only [withDmac_pos, hp]; exact ⟨d, rfl⟩
  | _ => simp only [withDmac_pos, hp]; exact irqCheck_ignoresDmac { s with remaining := τ } d

theorem execCcWriteByte_ignoresDmac (b : Byte) (s : State) : StepIgnoresDmac (execCcWriteByte b) s := by
  refine IgnoresDmac.step fun d => ?_
  cases hp : s.pos with
  | put h => simp only [withDmac_pos, hp]; exact putStep_ignoresDmac b h s d
  | _ => simp only [withDmac_pos, hp]; exact putStep_ignoresDmac b .poll { s with polls := 0 } d

theorem execDmaProgram_ignoresDmac (addr count : Word32) (dir : Direction) (s : State) :
    StepIgnoresDmac (execDmaProgram addr count dir) s := by
  refine IgnoresDmac.step fun d => ?_
  cases hp : s.pos with
  | dma => simp only [withDmac_pos, withDmac_i, hp]; exact dmaStep_ignoresDmac addr count dir s.i s d
  | _ =>
    cases hc : dmaCheck addr count with
    | some reason => simp only [withDmac_pos, hp]; exact ⟨d, rfl⟩
    | none => simp only [withDmac_pos, hp]; exact dmaStep_ignoresDmac addr count dir 0 s d

theorem execGeoChsToLba_ignoresDmac (cyl : Word32) (head sec : Byte) (s : State) :
    StepIgnoresDmac (execGeoChsToLba cyl head sec) s := by
  refine IgnoresDmac.step fun d => ?_
  cases lbaOf Config.spt cyl.toNat head.toNat sec.toNat <;> exact respond_ignoresDmac _ _ _ _ s d

theorem exec_ignoresDmac (i : Instr) (s : State) : StepIgnoresDmac (exec i) s := by
  rcases isExchange_or i with hx | ⟨τ, rfl⟩ | ⟨b, rfl⟩ | ⟨lba, rfl⟩ | ⟨c, h, sec, rfl⟩ | ⟨a, c, d, rfl⟩ |
    ⟨a, b, c, rfl⟩ | rfl
  · rw [show exec i = _ from funext (exec_exchange i hx)]
    exact (exchange_ignoresDmac _ _ _ s).step
  · exact execIrqWait_ignoresDmac τ s
  · exact execCcWriteByte_ignoresDmac b s
  · exact (respond_ignoresDmac _ _ _ _ s).step
  · exact execGeoChsToLba_ignoresDmac c h sec s
  · exact execDmaProgram_ignoresDmac a c d s
  · exact (respond_ignoresDmac _ _ _ _ s).step
  · exact (exchange_ignoresDmac [] 0 alwaysOk s).step

/-! ## One step -/

/-- Settles O54: the registers decide neither whose turn it is nor what is fetched, and no agent's step reads them. -/
theorem dmaRegistersInfluenceNothing : Obligations.DmaRegistersInfluenceNothing := by
  intro s t d h
  show ∃ d', step (s.withDmac d) = .next (t.withDmac d')
  rcases step_cases h with ⟨ht, rfl⟩ | ⟨ht, rfl⟩ | ⟨ht, hp, q, qs, hr, rfl⟩ | ⟨ht, hp, q, ho, hpos, ⟨e, hd⟩, rfl⟩ |
    ⟨ht, hp, q, i, ho, hpos, hd, hx⟩ | ⟨ht, hp, q, h, c, ho, hpos, hd, hx⟩
  · refine ⟨d, (step_of_irq (s := s.withDmac d) ht).trans ?_⟩
    rw [irqSignal_eq, irqSignal_eq]
    rfl
  · exact ⟨d, step_of_reset (s := s.withDmac d) ht⟩
  · exact ⟨d, step_of_issue (s := s.withDmac d) ht hp hr⟩
  · exact ⟨d, step_of_fetch_illegal (s := s.withDmac d) ht hp (fetch_of_illegal ho hpos hd)⟩
  · obtain ⟨d', hd'⟩ := exec_ignoresDmac i s.takeTurn t d hx
    exact ⟨d', (step_of_fetch (s := s.withDmac d) ht hp (fetch_of_request ho hpos hd)).trans hd'⟩
  · obtain ⟨d', hd'⟩ := exec_ignoresDmac c s.takeTurn t d hx
    exact ⟨d', (step_of_fetch (s := s.withDmac d) ht hp (fetch_of_command ho hpos hd)).trans hd'⟩

end Sys2Proof.Machine
end

section
/-!
The ports (O52). Every update adds to the history only events that R61 allows: each port access is the handshake's MSR
read, the FIFO's, or one of DMA_PROGRAM's ten writes.
-/

namespace Sys2Proof.Machine

/-! ## Updates that add only allowed events -/

/-- The history of t is that of s with events that R61 allows added. -/
def AddsAllowed (s t : State) : Prop := ∃ evs, t.events = s.events ++ evs ∧ ∀ e ∈ evs, AllowedAccess e

variable {r s t : State}

theorem AddsAllowed.of_events_eq (h : t.events = s.events) : AddsAllowed s t :=
  ⟨[], by rw [h, List.append_nil], nofun⟩

theorem AddsAllowed.of_event {e : Event} (h : t.events = s.events ++ [e]) (he : AllowedAccess e) : AddsAllowed s t :=
  ⟨[e], h, List.forall_mem_singleton.mpr he⟩

theorem AddsAllowed.trans (hrs : AddsAllowed r s) (hst : AddsAllowed s t) : AddsAllowed r t := by
  obtain ⟨es, hs, hes⟩ := hrs
  obtain ⟨fs, ht, hfs⟩ := hst
  exact ⟨es ++ fs, by rw [ht, hs, List.append_assoc], List.forall_mem_append.mpr ⟨hes, hfs⟩⟩

theorem ioRead8_addsAllowed {p : Port} (hp : p ∈ readablePorts) (s : State) : AddsAllowed s (ioRead8 p s) :=
  .of_event (ioRead8_events p s) hp

theorem ioWrite8_addsAllowed {p : Port} (hp : p ∈ writablePorts) (v : Byte) (s : State) :
    AddsAllowed s (ioWrite8 p v s) :=
  .of_event (ioWrite8_events p v s) hp

theorem respond_addsAllowed (st : Status) (rb : Bytes7) (rw0 rw1 : Word32) (s : State) :
    AddsAllowed s (respond st rb rw0 rw1 s) :=
  .of_event (respond_events st rb rw0 rw1 s) trivial

/-! ## The named ports are those of R61 -/

theorem msrPort_readable : msrPort ∈ readablePorts := by decide
theorem fifoPort_readable : fifoPort ∈ readablePorts := by decide
theorem fifoPort_writable : fifoPort ∈ writablePorts := by decide

theorem dmaWrites_writable {addr count : Word32} {dir : Direction} {w : Port × Byte}
    (hw : w ∈ dmaWrites addr count dir) : w.1 ∈ writablePorts := by
  have hports : (dmaWrites addr count dir).map Prod.fst =
      [dmaMaskPort, dmaFlipFlopPort, dmaAddrPort, dmaAddrPort, dmaPagePort, dmaFlipFlopPort, dmaCountPort,
        dmaCountPort, dmaModePort, dmaMaskPort] := rfl
  have hsub : (dmaWrites addr count dir).map Prod.fst ⊆ writablePorts := by
    rw [hports]
    decide
  exact hsub (List.mem_map_of_mem hw)

/-! ## The handshake, SEND and READN -/

theorem handshake_addsAllowed {want : Ready} {at_ : Handshake → Pos} {access expired : State → State}
    (haccess : AddsAllowed s (access s)) (hexpired : ∀ x, AddsAllowed x (expired x)) (h : Handshake) :
    AddsAllowed s (handshake want at_ access expired h s) := by
  have hread : AddsAllowed s (ioRead8 msrPort s) := ioRead8_addsAllowed msrPort_readable s
  apply handshake_cases
  case ready => exact fun _ _ => hread
  case out => exact fun _ _ _ => hread.trans (hexpired _)
  case again => exact fun _ _ _ => hread
  case ticked => exact fun _ => .of_event (tick_events s) trivial
  case accessed => exact fun _ => haccess

theorem sendAccess_addsAllowed (cmd : List Byte) (n : Nat) (s : State) : AddsAllowed s (sendAccess cmd n s) := by
  have hwrite := ioWrite8_addsAllowed fifoPort_writable (cmd.getD s.i 0) s
  unfold sendAccess
  split
  · exact hwrite
  · split
    · exact hwrite.trans (respond_addsAllowed ..)
    · exact hwrite

theorem recvAccess_addsAllowed (sent n : Nat) (done : Bytes7 → Status) (s : State) :
    AddsAllowed s (recvAccess sent n done s) := by
  have hread := ioRead8_addsAllowed fifoPort_readable s
  unfold recvAccess
  split
  · exact hread
  · exact hread.trans (respond_addsAllowed ..)

/-- A write handshake that times out logs its byte and responds. -/
theorem writeTimeout_addsAllowed (b : Byte) (rb : Bytes7) (rw0 : Word32) (s : State) :
    AddsAllowed s (respond .timeout rb rw0 0 (logWriteTimeout b s)) :=
  .trans (.of_event (logWriteTimeout_events b s) trivial) (respond_addsAllowed ..)

theorem sendStep_addsAllowed (cmd : List Byte) (n : Nat) (h : Handshake) (s : State) :
    AddsAllowed s (sendStep cmd n h s) :=
  handshake_addsAllowed (sendAccess_addsAllowed cmd n s) (fun _ => writeTimeout_addsAllowed ..) h

theorem recvStep_addsAllowed (sent n : Nat) (done : Bytes7 → Status) (h : Handshake) (s : State) :
    AddsAllowed s (recvStep sent n done h s) :=
  handshake_addsAllowed (recvAccess_addsAllowed sent n done s) (fun _ => respond_addsAllowed ..) h

/-- Beginning SEND or READN records nothing. -/
theorem exchange_addsAllowed (cmd : List Byte) (n : Nat) (done : Bytes7 → Status) (s : State) :
    AddsAllowed s (exchange cmd n done s) := by
  apply exchange_cases
  case sending => rintro h s' (⟨-, rfl⟩ | ⟨-, -, rfl⟩) <;> exact sendStep_addsAllowed cmd n h _
  case receiving => rintro h s' (⟨-, rfl⟩ | ⟨-, -, rfl⟩) <;> exact recvStep_addsAllowed cmd.length n done h _

/-! ## The other instructions -/

theorem putStep_addsAllowed (b : Byte) (h : Handshake) (s : State) : AddsAllowed s (putStep b h s) :=
  handshake_addsAllowed ((ioWrite8_addsAllowed fifoPort_writable b s).trans (respond_addsAllowed ..))
    (fun _ => writeTimeout_addsAllowed ..) h

theorem irqCheck_addsAllowed (s : State) : AddsAllowed s (irqCheck s) := by
  unfold irqCheck
  split
  · exact respond_addsAllowed ..
  · split
    · exact respond_addsAllowed ..
    · exact .of_events_eq rfl

theorem dmaStep_addsAllowed (addr count : Word32) (dir : Direction) (i : Nat) (s : State) :
    AddsAllowed s (dmaStep addr count dir i s) := by
  unfold dmaStep
  split
  · rename_i p v hw
    have hwrite := ioWrite8_addsAllowed (dmaWrites_writable (List.mem_of_getElem? hw)) v s
    split
    · exact hwrite
    · exact hwrite.trans (respond_addsAllowed ..)
  · exact respond_addsAllowed ..

theorem execIrqWait_addsAllowed {τ : BitVec 16} (h : exec (.irqWait τ) s = .next t) : AddsAllowed s t := by
  obtain ⟨⟩ := h
  split
  · exact irqCheck_addsAllowed s
  · exact .of_event (tick_events s) trivial
  · exact irqCheck_addsAllowed { s with remaining := τ }

theorem execCcWriteByte_addsAllowed {b : Byte} (h : exec (.ccWriteByte b) s = .next t) : AddsAllowed s t := by
  obtain ⟨⟩ := h
  split
  · exact putStep_addsAllowed b _ s
  · exact putStep_addsAllowed b .poll { s with polls := 0 }

theorem execDmaProgram_addsAllowed {addr count : Word32} {dir : Direction}
    (h : exec (.dmaProgram addr count dir) s = .next t) : AddsAllowed s t := by
  obtain ⟨⟩ := h
  split
  · exact dmaStep_addsAllowed ..
  · split
    · exact .of_event (raiseFault_events _ s) trivial
    · exact dmaStep_addsAllowed ..

theorem execGeoChsToLba_addsAllowed {cyl : Word32} {head sec : Byte}
    (h : exec (.geoChsToLba cyl head sec) s = .next t) : AddsAllowed s t := by
  obtain ⟨⟩ := h
  split <;> exact respond_addsAllowed ..

theorem exec_addsAllowed {i : Instr} (h : exec i s = .next t) : AddsAllowed s t := by
  rcases isExchange_or i with hx | ⟨τ, rfl⟩ | ⟨b, rfl⟩ | ⟨lba, rfl⟩ | ⟨c, hd, sec, rfl⟩ | ⟨a, c, d, rfl⟩ |
    ⟨a, b, c, rfl⟩ | rfl
  · rw [exec_exchange i hx] at h
    obtain ⟨⟩ := h
    exact exchange_addsAllowed ..
  · exact execIrqWait_addsAllowed h
  · exact execCcWriteByte_addsAllowed h
  · obtain ⟨⟩ := h
    exact respond_addsAllowed ..
  · exact execGeoChsToLba_addsAllowed h
  · exact execDmaProgram_addsAllowed h
  · obtain ⟨⟩ := h
    exact respond_addsAllowed ..
  · obtain ⟨⟩ := h
    exact exchange_addsAllowed ..

/-! ## One step -/

theorem irqSignal_addsAllowed (s : State) : AddsAllowed s (irqSignal s) := by
  unfold irqSignal
  split <;> exact .of_event rfl trivial

/-- Settles O52: only SEQ's steps access ports, and `exec` adds only what R61 allows. -/
theorem onlyTheNamedPortsAreAccessed : Obligations.OnlyTheNamedPortsAreAccessed := by
  intro s t h
  show AddsAllowed s.takeTurn t
  rcases step_cases h with ⟨-, rfl⟩ | ⟨-, rfl⟩ | ⟨-, -, _, _, -, rfl⟩ | ⟨-, -, _, -, -, -, rfl⟩ |
    ⟨-, -, _, _, -, -, -, hx⟩ | ⟨-, -, _, _, _, -, -, -, hx⟩
  · exact irqSignal_addsAllowed _
  · exact .of_event (resetBlock_events _) trivial
  · exact .of_events_eq rfl
  · exact respond_addsAllowed ..
  · exact exec_addsAllowed hx
  · exact exec_addsAllowed hx

end Sys2Proof.Machine
end

section
/-!
The encodings of the requests and of the command phases (O10 to O13, O15 to O18). A request word decodes to an instruction exactly
when it is the word of that instruction and the instruction is well formed: `decodeRequest_eq_ok_iff` says both
directions of the round trip. For the valid words (O13) the masks of the opcode map are compared field by field.
-/

namespace Sys2Proof

open Machine (requestRows ValidWord)

/-! ## The bytes of a request word (R84) -/

theorem requestBytes_length (q : Request) : (requestBytes q).length = 16 := leBytes_length 16 q.toNat

theorem requestBytes_getElem? {q : Request} {k : Nat} (hk : k < 16) :
    (requestBytes q)[k]? = some (q.extractLsb' (8 * k) 8) := by
  have hbyte : BitVec.ofNat 8 (q.toNat / 256 ^ k) = q.extractLsb' (8 * k) 8 := by
    apply BitVec.eq_of_toNat_eq
    rw [BitVec.extractLsb'_toNat, Nat.shiftRight_eq_div_pow, Nat.pow_mul, BitVec.toNat_ofNat]
  rw [← hbyte]
  exact leBytes_get 16 q.toNat k hk

theorem requestOfBytes_requestBytes_append (q : Request) (rest : List Byte) :
    requestOfBytes (requestBytes q ++ rest) = some (q, rest) := by
  have hlen := requestBytes_length q
  have hvalue : BitVec.ofNat 128 (leNat (requestBytes q)) = q := by
    rw [requestBytes, leNat_leBytes]
    apply BitVec.eq_of_toNat_eq
    rw [BitVec.toNat_ofNat]
    omega
  rw [requestOfBytes, if_pos (by rw [List.length_append]; omega), List.take_left' hlen, List.drop_left' hlen, hvalue]

/-- Settles O16: the three facts above. -/
theorem requestWordsAreLittleEndianBytes : Obligations.RequestWordsAreLittleEndianBytes :=
  fun q => ⟨requestBytes_length q, fun _ hk => requestBytes_getElem? hk, requestOfBytes_requestBytes_append q⟩

/-! ## The parts of the packed fields (R83) -/

/-- SEQ_RECALIBRATE's F holds the drive alone, so its head bit is 0 too. -/
theorem headDrive_zero_fields (drive : BitVec 2) : (headDrive 0#1 drive).extractLsb' 2 6 = 0 ∧
    (headDrive 0#1 drive).extractLsb' 0 2 = drive := by
  revert drive; decide

theorem append_fields (high low : Byte) :
    (high ++ low : BitVec 16).extractLsb' 8 8 = high ∧ (high ++ low : BitVec 16).extractLsb' 0 8 = low :=
  ⟨BitVec.extractLsb'_append_eq_left, BitVec.extractLsb'_append_eq_right⟩

theorem setWidth_eq_zero_append (low : Byte) : low.setWidth 16 = (0 : Byte) ++ low :=
  BitVec.setWidth_eq_append (by decide)

theorem setWidth_fields (low : Byte) :
    (low.setWidth 16).extractLsb' 8 8 = 0 ∧ (low.setWidth 16).extractLsb' 0 8 = low := by
  rw [setWidth_eq_zero_append]
  exact append_fields 0 low

/-! ## Packing the parts again, when the bits marked 0 are 0 (R83) -/

section

variable {f : Byte} {g : BitVec 16}

theorem headDrive_of_fields (h : f.extractLsb' 3 5 = 0) : headDrive (f.extractLsb' 2 1) (f.extractLsb' 0 2) = f := by
  have hhigh : f.extractLsb' 3 5 ++ f.extractLsb' 2 1 = f.extractLsb' 2 6 :=
    BitVec.extractLsb'_append_extractLsb'_eq_extractLsb' rfl
  rw [headDrive, ← h, hhigh]
  exact BitVec.extractLsb'_append_extractLsb'

theorem headDrive_zero_of_fields (h : f.extractLsb' 2 6 = 0) : headDrive 0#1 (f.extractLsb' 0 2) = f := by
  have hhigh : (0 : BitVec 5) ++ 0#1 = f.extractLsb' 2 6 := by rw [h]; rfl
  rw [headDrive, hhigh]
  exact BitVec.extractLsb'_append_extractLsb'

theorem cfgByte_of_fields (h : f.extractLsb' 7 1 = 0) :
    cfgByte (f.extractLsb' 6 1) (f.extractLsb' 5 1) (f.extractLsb' 4 1) (f.extractLsb' 0 4) = f := by
  rw [cfgByte, ← h]
  simp only [BitVec.extractLsb'_append_extractLsb'_eq_extractLsb', BitVec.extractLsb'_eq_self]

theorem directionByte_of_field (h : f.extractLsb' 1 7 = 0) : directionByte (directionOf (f.extractLsb' 0 1)) = f := by
  have hbit : ∀ bit : BitVec 1, directionByte (directionOf bit) = (0 : BitVec 7) ++ bit := by decide
  rw [hbit, ← h]
  exact BitVec.extractLsb'_append_extractLsb'

theorem append_of_fields : g.extractLsb' 8 8 ++ g.extractLsb' 0 8 = g := BitVec.extractLsb'_append_extractLsb'

theorem setWidth_of_fields (h : g.extractLsb' 8 8 = 0) : (g.extractLsb' 0 8).setWidth 16 = g := by
  rw [setWidth_eq_zero_append, ← h]
  exact append_of_fields

end

/-! ## A request word and its instruction (R82 to R85) -/

theorem ite_error_eq_ok_iff {c : Prop} [Decidable c] {r : Except DecodeError Instr} {e : DecodeError} {i : Instr} :
    (if c then r else .error e) = .ok i ↔ c ∧ r = .ok i := by
  by_cases h : c <;> simp [h]

theorem whenZero_eq_ok_iff {zero : Bool} {i j : Instr} : whenZero zero i = .ok j ↔ zero = true ∧ i = j := by
  rw [whenZero, ite_error_eq_ok_iff, Except.ok.injEq]

theorem decodeRequest_eq_ok_iff_decodeFields {q : Request} {i : Instr} :
    decodeRequest q = .ok i ↔ decodeFields (fieldsOf q) = .ok i ∧ (fieldsOf q).z = 0 := by
  rw [decodeRequest, ite_error_eq_ok_iff, and_comm]

/-- No bit is dropped: the bits that do not reach the instruction are those marked 0, and they are 0. -/
theorem fields_of_decodeFields {w : Fields} {i : Instr} (h : decodeFields w = .ok i) (hz : w.z = 0) :
    i.fields = some w := by
  obtain ⟨op, f, g, a, b, z⟩ := w
  obtain rfl : z = 0 := hz
  unfold decodeFields at h
  split at h
  case h_17 => cases h
  -- SEQ_READ_RESULT, the one request whose operand is checked too
  case h_12 =>
    obtain rfl : op = _ := ‹_›
    simp only [ite_error_eq_ok_iff, Except.ok.injEq, Bool.and_eq_true, beq_iff_eq] at h
    obtain ⟨⟨⟨rfl, rfl⟩, rfl⟩, -, rfl⟩ := h
    rfl
  all_goals
    obtain rfl : op = _ := ‹_›
    simp only [whenZero_eq_ok_iff, Bool.and_eq_true, beq_iff_eq] at h
    obtain ⟨hzero, rfl⟩ := h
    simp [Instr.fields, hzero, headDrive_of_fields, headDrive_zero_of_fields, cfgByte_of_fields,
      directionByte_of_field, append_of_fields, setWidth_of_fields]

/-- Only SEQ_READ_RESULT needs its well-formedness (R85 (c)). -/
theorem decodeFields_of_fields {w : Fields} {i : Instr} (h : i.fields = some w) (hi : i.wellFormed = true) :
    decodeFields w = .ok i := by
  cases i <;> cases h
  case seqReadResult n =>
    simp only [Instr.wellFormed, Bool.and_eq_true, decide_eq_true_eq] at hi
    simp [decodeFields, hi]
  all_goals
    simp [decodeFields, whenZero_eq_ok_iff, headDrive_fields, headDrive_zero_fields, cfgByte_fields,
      directionByte_field, append_fields, setWidth_fields]

theorem fields_z {w : Fields} {i : Instr} (h : i.fields = some w) : w.z = 0 := by
  cases i <;> cases h <;> rfl

/-- A word decodes to an instruction exactly when it is the word of that instruction, well formed. -/
theorem decodeRequest_eq_ok_iff {q : Request} {i : Instr} :
    decodeRequest q = .ok i ↔ i.requestWord = some q ∧ i.wellFormed = true := by
  constructor
  · intro h
    obtain ⟨hd, hz⟩ := decodeRequest_eq_ok_iff_decodeFields.mp h
    refine ⟨?_, Machine.wellFormed_of_decodeRequest h⟩
    rw [Instr.requestWord, fields_of_decodeFields hd hz, Option.map_some, word_fieldsOf]
  · rintro ⟨hword, hi⟩
    obtain ⟨w, hw, rfl⟩ := Option.map_eq_some_iff.mp hword
    rw [decodeRequest_eq_ok_iff_decodeFields, fieldsOf_word]
    exact ⟨decodeFields_of_fields hw hi, fields_z hw⟩

theorem requestWord_isSome_iff (i : Instr) : i.requestWord.isSome = true ↔ i.format = .req128 := by
  cases i <;> simp [Instr.requestWord, Instr.fields, Instr.format]

/-- Settles O11: this is one direction of `decodeRequest_eq_ok_iff`. -/
theorem encodeOfDecodeIsTheWord : Obligations.EncodeOfDecodeIsTheWord := by
  intro q i h
  obtain ⟨hword, hi⟩ := decodeRequest_eq_ok_iff.mp h
  exact ⟨hword, hi, (requestWord_isSome_iff i).mp (by rw [hword]; rfl)⟩

/-! ## A command phase and its bytes (R90, R93, R94, R101) -/

theorem encode_of_requestWord {q : Request} {i : Instr} (h : i.requestWord = some q) : encode i = requestBytes q := by
  rw [encode, h]

/-- The first byte fixes how many bytes follow it, so what comes after them is left over. -/
theorem decodeCommand_encode_append {c : Instr} (h : c.format = .fdcCmd8) (rest : List Byte) :
    decodeCommand (encode c ++ rest) = .ok (c, rest) := by
  cases c <;> cases h <;> rfl

/-- Settles O10: in each format, decoding undoes the encoding. -/
theorem decodeOfEncodeIsTheInstruction : Obligations.DecodeOfEncodeIsTheInstruction := by
  intro i hi rest
  cases hf : i.format with
  | req128 =>
    obtain ⟨q, hq⟩ := Option.isSome_iff_exists.mp ((requestWord_isSome_iff i).mpr hf)
    have hd : decodeRequest q = .ok i := decodeRequest_eq_ok_iff.mpr ⟨hq, hi⟩
    simp only [decode, encode_of_requestWord hq, requestOfBytes_requestBytes_append, hd]
  | fdcCmd8 => exact decodeCommand_encode_append hf rest

/-- Settles O12: each branch of the decoder that answers names the bytes it took. -/
theorem commandPhaseOfDecodeIsTheBytes : Obligations.CommandPhaseOfDecodeIsTheBytes := by
  intro bytes c rest h
  unfold decodeCommand at h
  repeat' split at h
  all_goals cases h <;> exact ⟨rfl, rfl⟩

/-! ## The fixed bits of the opcode map (R82, R83, R85) -/

/-- A mask over a word is a mask over each of its fields. -/
theorem and_eq_iff_fieldsOf {q mask word : Request} : q &&& mask = word ↔
    (fieldsOf q).op &&& (fieldsOf mask).op = (fieldsOf word).op ∧
    (fieldsOf q).f &&& (fieldsOf mask).f = (fieldsOf word).f ∧
    (fieldsOf q).g &&& (fieldsOf mask).g = (fieldsOf word).g ∧
    (fieldsOf q).a &&& (fieldsOf mask).a = (fieldsOf word).a ∧
    (fieldsOf q).b &&& (fieldsOf mask).b = (fieldsOf word).b ∧
    (fieldsOf q).z &&& (fieldsOf mask).z = (fieldsOf word).z := by
  have hinj : q &&& mask = word ↔ fieldsOf (q &&& mask) = fieldsOf word :=
    ⟨congrArg fieldsOf, fun h => by rw [← word_fieldsOf (q &&& mask), h, word_fieldsOf]⟩
  rw [hinj]
  simp only [fieldsOf, BitVec.extractLsb'_and, Fields.mk.injEq]

/-- A mask of `len` ones from bit `start` on looks at exactly those bits. -/
theorem and_mask_eq_zero_iff {w : Nat} (x : BitVec w) (start len : Nat) (h : start + len ≤ w) :
    x &&& (BitVec.allOnes len).setWidth w <<< start = 0 ↔ x.extractLsb' start len = 0 := by
  constructor
  · intro hx
    ext j hj
    have hbit := congrArg (·.getLsbD (start + j)) hx
    simpa [hj, show start + j < w by omega] using hbit
  · intro hx
    ext j hj
    have hbit := congrArg (·.getLsbD (j - start)) hx
    by_cases hs : start ≤ j ∧ j - start < len
    · have hxj : x[j] = false := by simpa [hj, hs, hs.1] using hbit
      simp [hxj]
    · simp only [BitVec.getElem_and, BitVec.getElem_shiftLeft, BitVec.getElem_setWidth, BitVec.getLsbD_allOnes,
        BitVec.ofNat_eq_ofNat, BitVec.getElem_zero, Bool.and_eq_false_imp, Bool.not_eq_eq_eq_not, Bool.not_true,
        decide_eq_false_iff_not, not_lt]
      omega

section

variable (f : Byte) (g : BitVec 16)

/-! The masks that the rows hold in F, G, A, B and Z, in the spelling that `simp` gives them. -/

theorem and_byte_mask : f &&& 0xFF#8 = f := BitVec.and_allOnes
theorem and_half_mask : g &&& 0xFFFF#16 = g := BitVec.and_allOnes
theorem and_word_mask (a : Word32) : a &&& 0xFFFFFFFF#32 = a := BitVec.and_allOnes
theorem and_bits_7_3_eq_zero_iff : f &&& 0xF8#8 = 0#8 ↔ f.extractLsb' 3 5 = 0 := and_mask_eq_zero_iff f 3 5 (by decide)
theorem and_bits_7_2_eq_zero_iff : f &&& 0xFC#8 = 0#8 ↔ f.extractLsb' 2 6 = 0 := and_mask_eq_zero_iff f 2 6 (by decide)
theorem and_bits_7_1_eq_zero_iff : f &&& 0xFE#8 = 0#8 ↔ f.extractLsb' 1 7 = 0 := and_mask_eq_zero_iff f 1 7 (by decide)
theorem and_bit_7_eq_zero_iff : f &&& 0x80#8 = 0#8 ↔ f.extractLsb' 7 1 = 0 := and_mask_eq_zero_iff f 7 1 (by decide)
theorem and_high_byte_eq_zero_iff : g &&& 0xFF00#16 = 0#16 ↔ g.extractLsb' 8 8 = 0 :=
  and_mask_eq_zero_iff g 8 8 (by decide)

end

theorem exists_row_of_fields {w : Fields} {i : Instr} (h : i.fields = some w) :
    ∃ row ∈ requestRows, w.op = (fieldsOf row.1).op := by
  cases i <;> cases h
  all_goals
    dsimp only
    decide

/-- Every row fixes the whole of OP. -/
theorem op_of_row {q : Request} {row : Request × Request} (hrow : row ∈ requestRows) (h : q &&& row.2 = row.1) :
    (fieldsOf q).op = (fieldsOf row.1).op := by
  have hfixed : ∀ r ∈ requestRows, (fieldsOf r.2).op = 0xFF#8 := by simp [requestRows, fieldsOf]
  obtain ⟨hop, -⟩ := and_eq_iff_fieldsOf.mp h
  rwa [hfixed row hrow, and_byte_mask] at hop

/-- With the OP of a row, the decoder's own checks are the row's mask and the count (R85 (b), (c)). -/
theorem exists_decodeRequest_iff_of_row {q : Request} {row : Request × Request} (hrow : row ∈ requestRows)
    (hop : (fieldsOf q).op = (fieldsOf row.1).op) :
    (∃ i, decodeRequest q = .ok i) ↔
      q &&& row.2 = row.1 ∧ ((fieldsOf q).op = 0x27 → 1 ≤ (fieldsOf q).f.toNat ∧ (fieldsOf q).f.toNat ≤ 7) := by
  simp only [decodeRequest_eq_ok_iff_decodeFields, and_eq_iff_fieldsOf]
  generalize fieldsOf q = w at hop ⊢
  obtain ⟨op, f, g, a, b, z⟩ := w
  obtain rfl : op = _ := hop
  simp only [requestRows] at hrow
  fin_cases hrow
  all_goals
    simp [fieldsOf, decodeFields, whenZero_eq_ok_iff, ite_error_eq_ok_iff, and_assoc, and_left_comm, and_comm,
      and_byte_mask, and_half_mask, and_word_mask, and_bits_7_3_eq_zero_iff, and_bits_7_2_eq_zero_iff, and_bits_7_1_eq_zero_iff,
      and_bit_7_eq_zero_iff, and_high_byte_eq_zero_iff]

theorem exists_decodeRequest_iff_validWord {q : Request} : (∃ i, decodeRequest q = .ok i) ↔ ValidWord q := by
  constructor
  · rintro ⟨i, h⟩
    obtain ⟨hd, hz⟩ := decodeRequest_eq_ok_iff_decodeFields.mp h
    obtain ⟨row, hrow, hop⟩ := exists_row_of_fields (fields_of_decodeFields hd hz)
    obtain ⟨hmask, hcount⟩ := (exists_decodeRequest_iff_of_row hrow hop).mp ⟨i, h⟩
    exact ⟨⟨row, hrow, hmask⟩, hcount⟩
  · rintro ⟨⟨row, hrow, hmask⟩, hcount⟩
    exact (exists_decodeRequest_iff_of_row hrow (op_of_row hrow hmask)).mpr ⟨hmask, hcount⟩

/-- Settles O13: the iff above. -/
theorem exactlyTheValidWordsDecode : Obligations.ExactlyTheValidWordsDecode :=
  fun _ => exists_decodeRequest_iff_validWord

/-! ## The spec's own words, bytes and lines -/

/-- Settles O15, by decoding each. -/
theorem writtenWordsDecode : Obligations.WrittenWordsDecode := by
  unfold Obligations.WrittenWordsDecode
  decide

/-- The shifted and joined drive/head byte of R92 is the packed one. -/
theorem dh_eq_driveHead (drive : BitVec 2) (head : BitVec 1) :
    Machine.Reading.dh drive head = Machine.driveHead drive head := by
  revert drive head; decide

/-- Settles O17: but for the drive/head byte, the bytes are `commandOf`'s as they stand. -/
theorem commandPhasesAreTheRuleBytes : Obligations.CommandPhasesAreTheRuleBytes := by
  unfold Obligations.CommandPhasesAreTheRuleBytes
  simp only [dh_eq_driveHead]
  exact ⟨rfl, fun _ _ _ => rfl, fun _ => rfl, fun _ _ _ _ => rfl, fun _ _ _ _ => rfl, rfl, fun _ _ _ _ _ => rfl, rfl⟩

/-- Settles O18: each line's requests are written so. -/
theorem pseudoInstructionsExpand : Obligations.PseudoInstructionsExpand :=
  ⟨rfl, rfl, rfl, fun _ _ => rfl, fun _ _ => rfl⟩

end Sys2Proof
end

section
/-!
Responses and illegal words (O14, O50). Every update of a step adds events of which none is a response, or ends in
Respond, which copies OP.
-/

namespace Sys2Proof.Machine

/-! ## The illegal words -/

/-- Settles O14: a word that is not valid does not decode, so the step refuses it. -/
theorem illegalWordsAreAnsweredInOneStep : Obligations.IllegalWordsAreAnsweredInOneStep := by
  intro s q ht hp ho hpos hv
  cases hd : decodeRequest q with
  | ok i => exact absurd (exists_decodeRequest_iff_validWord.mp ⟨i, hd⟩) hv
  | error e =>
    have hf : fetch s.takeTurn = .illegal := fetch_of_illegal ho (by simp [hpos]) hd
    rw [step_of_fetch_illegal ht hp hf, refuseRequest_eq_ended, rbZero_eq, takeTurn_opcode, opcode_of_op s q ho]

/-! ## Updates that copy OP when they respond -/

/-- The history of t is that of s with events added, and a response among them carries the OP of s and leaves t
IDLE. -/
def CopiesOpcode (s t : State) : Prop :=
  ∃ evs, t.events = s.events ++ evs ∧ ∀ r, .resp r ∈ evs → t.phase = .idle ∧ r.opcode = s.opcode

variable {r s t : State}

theorem CopiesOpcode.of_events_eq (h : t.events = s.events) : CopiesOpcode s t :=
  ⟨[], by rw [h, List.append_nil], nofun⟩

theorem CopiesOpcode.of_event {e : Event} (h : t.events = s.events ++ [e]) (he : ∀ r, .resp r ≠ e) :
    CopiesOpcode s t :=
  ⟨[e], h, fun r hr => absurd (List.mem_singleton.mp hr) (he r)⟩

/-- An event that is no response may come first. -/
theorem CopiesOpcode.after_event {e : Event} (h : s.events = r.events ++ [e]) (he : ∀ r, .resp r ≠ e)
    (hop : s.opcode = r.opcode) (hst : CopiesOpcode s t) : CopiesOpcode r t := by
  obtain ⟨evs, hevs, hresp⟩ := hst
  refine ⟨e :: evs, by rw [hevs, h, List.append_assoc]; rfl, fun x hx => ?_⟩
  rw [← hop]
  exact hresp x ((List.mem_cons.mp hx).resolve_left (he x))

theorem respond_copiesOpcode (st : Status) (rb : Bytes7) (rw0 rw1 : Word32) (s : State) :
    CopiesOpcode s (respond st rb rw0 rw1 s) := by
  refine ⟨_, respond_events st rb rw0 rw1 s, fun r hr => ⟨rfl, ?_⟩⟩
  obtain rfl := Event.resp.inj (List.mem_singleton.mp hr)
  rfl

theorem ioRead8_then_copiesOpcode {p : Port} (h : CopiesOpcode (ioRead8 p s) t) : CopiesOpcode s t :=
  .after_event (ioRead8_events p s) nofun rfl h

theorem ioWrite8_then_copiesOpcode {p : Port} {v : Byte} (h : CopiesOpcode (ioWrite8 p v s) t) : CopiesOpcode s t :=
  .after_event (ioWrite8_events p v s) nofun rfl h

/-! ## The handshake, SEND and READN -/

theorem handshake_copiesOpcode {want : Ready} {at_ : Handshake → Pos} {access expired : State → State}
    (haccess : CopiesOpcode s (access s)) (hexpired : ∀ x, CopiesOpcode x (expired x)) (h : Handshake) :
    CopiesOpcode s (handshake want at_ access expired h s) := by
  apply handshake_cases
  case ready => exact fun _ _ => .of_event (ioRead8_events msrPort s) nofun
  case out => exact fun _ _ _ => ioRead8_then_copiesOpcode (hexpired _)
  case again => exact fun _ _ _ => .of_event (ioRead8_events msrPort s) nofun
  case ticked => exact fun _ => .of_event (tick_events s) nofun
  case accessed => exact fun _ => haccess

theorem sendAccess_copiesOpcode (cmd : List Byte) (n : Nat) (s : State) : CopiesOpcode s (sendAccess cmd n s) := by
  have hwrite := ioWrite8_events fifoPort (cmd.getD s.i 0) s
  unfold sendAccess
  split
  · exact .of_event hwrite nofun
  · split
    · exact ioWrite8_then_copiesOpcode (respond_copiesOpcode ..)
    · exact .of_event hwrite nofun

theorem recvAccess_copiesOpcode (sent n : Nat) (done : Bytes7 → Status) (s : State) :
    CopiesOpcode s (recvAccess sent n done s) := by
  have hread := ioRead8_events fifoPort s
  unfold recvAccess
  split
  · exact .of_event hread nofun
  · exact .after_event hread nofun rfl (respond_copiesOpcode ..)

/-- A write handshake that times out logs its byte and responds. -/
theorem writeTimeout_copiesOpcode (b : Byte) (rb : Bytes7) (rw0 : Word32) (s : State) :
    CopiesOpcode s (respond .timeout rb rw0 0 (logWriteTimeout b s)) :=
  .after_event (logWriteTimeout_events b s) nofun rfl (respond_copiesOpcode ..)

theorem sendStep_copiesOpcode (cmd : List Byte) (n : Nat) (h : Handshake) (s : State) :
    CopiesOpcode s (sendStep cmd n h s) :=
  handshake_copiesOpcode (sendAccess_copiesOpcode cmd n s) (fun _ => writeTimeout_copiesOpcode ..) h

theorem recvStep_copiesOpcode (sent n : Nat) (done : Bytes7 → Status) (h : Handshake) (s : State) :
    CopiesOpcode s (recvStep sent n done h s) :=
  handshake_copiesOpcode (recvAccess_copiesOpcode sent n done s) (fun _ => respond_copiesOpcode ..) h

/-- Beginning SEND or READN records nothing and keeps the request. -/
theorem exchange_copiesOpcode (cmd : List Byte) (n : Nat) (done : Bytes7 → Status) (s : State) :
    CopiesOpcode s (exchange cmd n done s) := by
  apply exchange_cases
  case sending => rintro h s' (⟨-, rfl⟩ | ⟨-, -, rfl⟩) <;> exact sendStep_copiesOpcode cmd n h _
  case receiving => rintro h s' (⟨-, rfl⟩ | ⟨-, -, rfl⟩) <;> exact recvStep_copiesOpcode cmd.length n done h _

/-! ## The other instructions -/

theorem putStep_copiesOpcode (b : Byte) (h : Handshake) (s : State) : CopiesOpcode s (putStep b h s) :=
  handshake_copiesOpcode (ioWrite8_then_copiesOpcode (respond_copiesOpcode ..))
    (fun _ => writeTimeout_copiesOpcode ..) h

theorem irqCheck_copiesOpcode (s : State) : CopiesOpcode s (irqCheck s) := by
  unfold irqCheck
  split
  · exact respond_copiesOpcode ..
  · split
    · exact respond_copiesOpcode ..
    · exact .of_events_eq rfl

theorem dmaStep_copiesOpcode (addr count : Word32) (dir : Direction) (i : Nat) (s : State) :
    CopiesOpcode s (dmaStep addr count dir i s) := by
  unfold dmaStep
  split
  · split
    · exact .of_event (ioWrite8_events _ _ s) nofun
    · exact ioWrite8_then_copiesOpcode (respond_copiesOpcode ..)
  · exact respond_copiesOpcode ..

theorem execIrqWait_copiesOpcode {τ : BitVec 16} (h : exec (.irqWait τ) s = .next t) : CopiesOpcode s t := by
  obtain ⟨⟩ := h
  split
  · exact irqCheck_copiesOpcode s
  · exact .of_event (tick_events s) nofun
  · exact irqCheck_copiesOpcode { s with remaining := τ }

theorem execCcWriteByte_copiesOpcode {b : Byte} (h : exec (.ccWriteByte b) s = .next t) : CopiesOpcode s t := by
  obtain ⟨⟩ := h
  split
  · exact putStep_copiesOpcode b _ s
  · exact putStep_copiesOpcode b .poll { s with polls := 0 }

theorem execDmaProgram_copiesOpcode {addr count : Word32} {dir : Direction}
    (h : exec (.dmaProgram addr count dir) s = .next t) : CopiesOpcode s t := by
  obtain ⟨⟩ := h
  split
  · exact dmaStep_copiesOpcode ..
  · split
    · exact .of_event (raiseFault_events _ s) nofun
    · exact dmaStep_copiesOpcode ..

theorem execGeoChsToLba_copiesOpcode {cyl : Word32} {head sec : Byte}
    (h : exec (.geoChsToLba cyl head sec) s = .next t) : CopiesOpcode s t := by
  obtain ⟨⟩ := h
  split <;> exact respond_copiesOpcode ..

theorem exec_copiesOpcode {i : Instr} (h : exec i s = .next t) : CopiesOpcode s t := by
  rcases isExchange_or i with hx | ⟨τ, rfl⟩ | ⟨b, rfl⟩ | ⟨lba, rfl⟩ | ⟨c, hd, sec, rfl⟩ | ⟨a, c, d, rfl⟩ |
    ⟨a, b, c, rfl⟩ | rfl
  · rw [exec_exchange i hx] at h
    obtain ⟨⟩ := h
    exact exchange_copiesOpcode ..
  · exact execIrqWait_copiesOpcode h
  · exact execCcWriteByte_copiesOpcode h
  · obtain ⟨⟩ := h
    exact respond_copiesOpcode ..
  · exact execGeoChsToLba_copiesOpcode h
  · exact execDmaProgram_copiesOpcode h
  · obtain ⟨⟩ := h
    exact respond_copiesOpcode ..
  · obtain ⟨⟩ := h
    exact exchange_copiesOpcode ..

/-! ## One step -/

/-- What a step adds to the history is read off in one way only. -/
theorem CopiesOpcode.of_mem {evs : List Event} {x : Response} (h : CopiesOpcode s t) (hevs : t.events = s.events ++ evs)
    (hx : .resp x ∈ evs) : t.phase = .idle ∧ x.opcode = s.opcode := by
  obtain ⟨evs', hevs', hresp⟩ := h
  obtain rfl : evs = evs' := List.append_cancel_left (hevs.symm.trans hevs')
  exact hresp x hx

/-- The event that IRQ_SIGNAL records is no response. -/
theorem irqSignal_event_ne_resp (flag : Bool) (x : Response) :
    .resp x ≠ (if flag then .irqCoalesced else .irqLatched : Event) := by
  cases flag <;> nofun

/-- Settles O50: only SEQ's steps respond, and they hold the request that they answer. -/
theorem responsesCopyTheOpcode : Obligations.ResponsesCopyTheOpcode := by
  intro s t x evs h hevs hx
  have hseq : ∀ q, s.op = some q → CopiesOpcode s.takeTurn t →
      t.phase = .idle ∧ ∃ q, s.op = some q ∧ x.opcode = q.extractLsb' 0 8 := by
    intro q ho hcopies
    obtain ⟨hidle, hop⟩ := hcopies.of_mem hevs hx
    exact ⟨hidle, q, ho, hop.trans (opcode_of_op s q ho)⟩
  have hother : ∀ es, t.events = s.events ++ es → .resp x ∉ es → False := by
    intro es hes hnot
    exact hnot (List.append_cancel_left (hevs.symm.trans hes) ▸ hx)
  rcases step_cases h with ⟨-, rfl⟩ | ⟨-, rfl⟩ | ⟨-, -, _, _, -, rfl⟩ | ⟨-, -, q, ho, -, -, rfl⟩ |
    ⟨-, -, q, _, ho, -, -, hexec⟩ | ⟨-, -, q, _, _, ho, -, -, hexec⟩
  · refine (hother _ (congrArg State.events (irqSignal_eq _)) ?_).elim
    exact fun hm => irqSignal_event_ne_resp s.irqFlag x (List.mem_singleton.mp hm)
  · exact (hother [.reset] rfl (by simp)).elim
  · exact (hother [] (List.append_nil _).symm (by simp)).elim
  · exact hseq q ho (respond_copiesOpcode ..)
  · exact hseq q ho (exec_copiesOpcode hexec)
  · exact hseq q ho (exec_copiesOpcode hexec)

end Sys2Proof.Machine
end

section
/-!
IrqGate (O3, O19, O20, O21). What IRQ_WAIT does at a check is said once for its first statement and its later checks,
which differ only in where the Ticks left are held. A check that finds neither a signal nor the budget spent makes a
round with the Tick that follows it, and both statements about runs are an induction on these rounds and one last check.
-/

namespace Sys2Proof.Machine

/-- Settles O3: the case of `step` that is IRQ's. -/
theorem irqSignalLatchesOrCoalesces : Obligations.IrqSignalLatchesOrCoalesces := by
  intro s ht
  rw [step_of_irq ht, irqSignal_eq]
  rfl

/-! ## The check and the Tick (R132, R134) -/

/-- SEQ is at a check of IRQ_WAIT τ with b Ticks left: at the first statement, where the budget is still the operand, or
at a later check. -/
def AtCheck (τ b : BitVec 16) (s : State) : Prop := s.pos = .first ∧ b = τ ∨ s.pos = .check ∧ b = s.remaining

section

variable {τ b : BitVec 16} {s : State}

theorem exec_irqWait_of_atCheck (hc : AtCheck τ b s) :
    exec (.irqWait τ) s = .next (irqCheck { s with remaining := b }) := by
  rcases hc with ⟨hpos, rfl⟩ | ⟨hpos, rfl⟩
  · simp only [exec, execIrqWait, hpos]
  · show _ = Host.Outcome.next (irqCheck s)
    simp only [exec, execIrqWait, hpos]

theorem exec_irqWait_of_signal (hc : AtCheck τ b s) (hf : s.irqFlag = true) :
    exec (.irqWait τ) s =
      .next { ended [] ⟨.ok, #v[1, 0, 0, 0, 0, 0, 0], 0, 0, s.opcode⟩ s with irqFlag := false } := by
  rw [exec_irqWait_of_atCheck hc, irqCheck, if_pos hf, respond_eq_ended]
  rfl

theorem exec_irqWait_of_budget_spent (hc : AtCheck τ 0 s) (hf : s.irqFlag = false) :
    exec (.irqWait τ) s = .next (ended [] ⟨.timeout, #v[0, 0, 0, 0, 0, 0, 0], 0, 0, s.opcode⟩ s) := by
  have hclear : { s with remaining := 0, irqFlag := false } = { s with remaining := 0 } := by rw [← hf]
  rw [exec_irqWait_of_atCheck hc, irqCheck, if_neg (by simp [hf]), if_pos rfl, hclear, respond_eq_ended]
  rfl

theorem exec_irqWait_of_budget_left (hc : AtCheck τ b s) (hf : s.irqFlag = false) (hb : b ≠ 0) :
    exec (.irqWait τ) s = .next { s with remaining := b, pos := .waitTick } := by
  rw [exec_irqWait_of_atCheck hc, irqCheck, if_neg (by simp [hf]), if_neg hb]

theorem exec_irqWait_of_waitTick (hpos : s.pos = .waitTick) : exec (.irqWait τ) s = .next (irqTick s) := by
  simp only [exec, execIrqWait, hpos]

end

/-- Settles O19: each outcome of the check at either of its places, and the Tick. -/
theorem irqWaitChecksAndTicks : Obligations.IrqWaitChecksAndTicks := by
  intro τ s
  have hfirst (hpos : s.pos = .first) : AtCheck τ τ s := .inl ⟨hpos, rfl⟩
  have hlater (hpos : s.pos = .check) : AtCheck τ s.remaining s := .inr ⟨hpos, rfl⟩
  refine ⟨?_, ?_, ?_, ?_, ?_, ?_, ?_⟩
  · exact fun hpos hf => exec_irqWait_of_signal (hfirst hpos) hf
  · exact fun hpos hf h0 => exec_irqWait_of_budget_spent (h0 ▸ hfirst hpos) hf
  · exact fun hpos hf h0 => exec_irqWait_of_budget_left (hfirst hpos) hf h0
  · exact fun hpos => exec_irqWait_of_waitTick hpos
  · exact fun hpos hf => exec_irqWait_of_signal (hlater hpos) hf
  · exact fun hpos hf h0 => exec_irqWait_of_budget_spent (h0 ▸ hlater hpos) hf
  · exact fun hpos hf h0 => exec_irqWait_of_budget_left (hlater hpos) hf h0

/-! ## The steps of a wait -/

/-- The operation in progress is the request q, an IRQ_WAIT τ. -/
structure Waits (q : Request) (τ : BitVec 16) (s : State) : Prop where
  phase : s.phase = .busy
  op : s.op = some q
  decoded : decodeRequest q = .ok (.irqWait τ)

/-- The next n turns are the block's. -/
def BlockTurns : Nat → List Turn → Prop
  | 0, _ => True
  | n + 1, turns => turns.headD .block = .block ∧ BlockTurns n turns.tail

theorem blockTurns_nil (n : Nat) : BlockTurns n [] := by
  induction n with
  | zero => trivial
  | succ n ih => exact ⟨rfl, ih⟩

theorem blockTurns_replicate_append (n : Nat) (rest : List Turn) :
    BlockTurns n (List.replicate n .block ++ rest) := by
  induction n with
  | zero => trivial
  | succ n ih => exact ⟨rfl, ih⟩

section

variable {q : Request} {τ b : BitVec 16} {s : State}

theorem AtCheck.pos_ne_send (hc : AtCheck τ b s) (h : Handshake) : s.pos ≠ .send h := by
  rcases hc with ⟨hpos, -⟩ | ⟨hpos, -⟩ <;> simp [hpos]

theorem Waits.step_eq (hw : Waits q τ s) (ht : s.turn = .block) (hpos : ∀ h, s.pos ≠ .send h) :
    step s = exec (.irqWait τ) s.takeTurn :=
  stepRunsTheFetchedInstruction.1 s q _ ht hw.phase hw.op hpos hw.decoded

theorem Waits.step_of_signal (hw : Waits q τ s) (hc : AtCheck τ b s) (ht : s.turn = .block) (hf : s.irqFlag = true) :
    step s = .next { ended [] ⟨.ok, #v[1, 0, 0, 0, 0, 0, 0], 0, 0, q.extractLsb' 0 8⟩ s.takeTurn with
      irqFlag := false } := by
  rw [hw.step_eq ht hc.pos_ne_send, exec_irqWait_of_signal (s := s.takeTurn) hc hf, takeTurn_opcode,
    opcode_of_op s q hw.op]

theorem Waits.step_of_budget_spent (hw : Waits q τ s) (hc : AtCheck τ 0 s) (ht : s.turn = .block)
    (hf : s.irqFlag = false) :
    step s = .next (ended [] ⟨.timeout, #v[0, 0, 0, 0, 0, 0, 0], 0, 0, q.extractLsb' 0 8⟩ s.takeTurn) := by
  rw [hw.step_eq ht hc.pos_ne_send, exec_irqWait_of_budget_spent (s := s.takeTurn) hc hf, takeTurn_opcode,
    opcode_of_op s q hw.op]

theorem Waits.run_signal_then_check (hw : Waits q τ s) (hc : AtCheck τ b s) (hf : s.irqFlag = false)
    (hsched : s.schedule = [.irq]) :
    run 2 s = .next (ended [.irqLatched] ⟨.ok, #v[1, 0, 0, 0, 0, 0, 0], 0, 0, q.extractLsb' 0 8⟩
      { s with schedule := [] }) := by
  have hirq : step s = .next { s with irqFlag := true, schedule := [], events := s.events ++ [.irqLatched] } := by
    rw [irqSignalLatchesOrCoalesces s (by rw [State.turn, hsched]; rfl), hsched, hf]
    rfl
  have hwait : Waits q τ { s with irqFlag := true, schedule := [], events := s.events ++ [.irqLatched] } :=
    ⟨hw.phase, hw.op, hw.decoded⟩
  rw [run_succ 1 hirq, run_succ 0 (hwait.step_of_signal hc rfl rfl), run_zero]
  simp [ended, State.takeTurn, hf]

/-! ## Rounds of a check and a Tick -/

/-- s after k rounds, the block taking 2k turns, with SEQ then at p and `remaining` holding r. At p = `.first` the Ticks
left are the operand's, whatever r is (`AtCheck`). -/
def ticked (k : Nat) (p : Pos) (r : BitVec 16) (s : State) : State :=
  { s with
    pos := p, remaining := r, events := s.events ++ List.replicate k .tick, schedule := s.schedule.drop (2 * k) }

theorem ticked_zero (s : State) : ticked 0 s.pos s.remaining s = s := by simp [ticked]

theorem ticked_ticked (k m : Nat) (p p' : Pos) (r r' : BitVec 16) (s : State) :
    ticked m p' r' (ticked k p r s) = ticked (k + m) p' r' s := by
  simp [ticked, Nat.mul_add]

theorem waits_ticked (hw : Waits q τ s) (k : Nat) (p : Pos) (r : BitVec 16) : Waits q τ (ticked k p r s) :=
  ⟨hw.phase, hw.op, hw.decoded⟩

theorem drop_two_eq_tail_tail (turns : List Turn) : turns.drop 2 = turns.tail.tail := by
  rw [← List.drop_one, ← List.drop_one, List.drop_drop]

/-- One round: a check that finds no signal with Ticks left, and the Tick. -/
theorem Waits.run_round (hw : Waits q τ s) (hc : AtCheck τ b s) (hf : s.irqFlag = false) (hb : b ≠ 0)
    (hturns : BlockTurns 2 s.schedule) : run 2 s = .next (ticked 1 .check (b - 1) s) := by
  obtain ⟨ht, ht', -⟩ := hturns
  have hcheck : step s = .next { s.takeTurn with remaining := b, pos := .waitTick } := by
    rw [hw.step_eq ht hc.pos_ne_send, exec_irqWait_of_budget_left (s := s.takeTurn) hc hf hb]
  have hwait : Waits q τ { s.takeTurn with remaining := b, pos := .waitTick } := ⟨hw.phase, hw.op, hw.decoded⟩
  rw [run_succ 1 hcheck, run_succ 0 ((hwait.step_eq ht' nofun).trans (exec_irqWait_of_waitTick rfl)), run_zero]
  simp [irqTick, tick, State.record, State.takeTurn, ticked, drop_two_eq_tail_tail]

/-- k rounds with no signal, as long as the budget lasts, lead to the next check with k Ticks less. -/
theorem Waits.run_rounds (k : Nat) {b : BitVec 16} {s : State} (hw : Waits q τ s) (hc : AtCheck τ b s)
    (hf : s.irqFlag = false) (hk : k ≤ b.toNat) (hturns : BlockTurns (2 * k) s.schedule) :
    ∃ p r left, run (2 * k) s = .next (ticked k p r s) ∧ AtCheck τ left (ticked k p r s) ∧
      left.toNat + k = b.toNat := by
  induction k generalizing b s with
  | zero => exact ⟨s.pos, s.remaining, b, by rw [ticked_zero]; rfl, by rwa [ticked_zero], rfl⟩
  | succ k ih =>
    obtain ⟨ht, ht', hturns⟩ := hturns
    have hb : b ≠ 0 := by rintro rfl; simp at hk
    have hrest : (ticked 1 .check (b - 1) s).schedule = s.schedule.tail.tail := drop_two_eq_tail_tail _
    have hround := hw.run_round hc hf hb ⟨ht, ht', trivial⟩
    have hpred : (b - 1).toNat + 1 = b.toNat := by bv_omega
    obtain ⟨p, r, left, hrun, hnext, hleft⟩ :=
      ih (waits_ticked hw 1 .check (b - 1)) (b := b - 1) (.inr ⟨rfl, rfl⟩) hf (by omega) (hrest ▸ hturns)
    rw [ticked_ticked, Nat.add_comm 1 k] at hrun hnext
    refine ⟨p, r, left, ?_, hnext, by omega⟩
    rw [Nat.mul_succ, Nat.add_comm, run_add 2 (2 * k) _ _ hround, hrun]

end

/-! ## Whole waits -/

/-- Settles O20: t rounds spend the budget, and the next check times out. -/
theorem irqWaitWithoutSignalTimesOut : Obligations.IrqWaitWithoutSignalTimesOut := by
  rintro q τ s hd ⟨hp, ho, ⟨hpos, -⟩, hsched⟩ hf
  have hw : Waits q τ s := ⟨hp, ho, hd⟩
  obtain ⟨p, r, left, hrun, hc, hleft⟩ :=
    hw.run_rounds τ.toNat (.inl ⟨hpos, rfl⟩) hf le_rfl (hsched ▸ blockTurns_nil _)
  obtain rfl : left = 0 := BitVec.eq_of_toNat_eq (by simpa using hleft)
  have ht : (ticked τ.toNat p r s).turn = .block := by simp [State.turn, ticked, hsched]
  have hlast := (waits_ticked hw τ.toNat p r).step_of_budget_spent hc ht hf
  rw [run_add _ 1 _ _ hrun, run_succ 0 hlast, run_zero]
  simp [ended, State.takeTurn, ticked, hsched]

/-- Settles O21: after k rounds the signal sets the latch, and the next check finds it, whatever the budget left. -/
theorem irqWaitSeesASignalAfterAnyTick : Obligations.IrqWaitSeesASignalAfterAnyTick := by
  rintro q τ s k hd ⟨hp, ho, ⟨hpos, -⟩, hsched⟩ hf hk
  have hw : Waits q τ { s with schedule := List.replicate (2 * k) .block ++ [.irq] } := ⟨hp, ho, hd⟩
  obtain ⟨p, r, left, hrun, hc, -⟩ :=
    hw.run_rounds k (.inl ⟨hpos, rfl⟩) hf hk (blockTurns_replicate_append _ _)
  have hrest : (List.replicate (2 * k) Turn.block ++ [Turn.irq]).drop (2 * k) = [.irq] := by simp
  rw [run_add _ 2 _ _ hrun, (waits_ticked hw k p r).run_signal_then_check hc hf hrest]
  simp [ended, ticked, hsched]

end Sys2Proof.Machine
end

section
/-!
SEND, READN and HS_WRITE step by step (O24 to O29). In each of the three places a step is one step of a handshake, so
the MSR read and the Tick are stated once for a handshake; what is left to each place is its FIFO access and what it
does when the handshake expires.
-/

namespace Sys2Proof.Machine

/-! ## One step of a handshake (R150) -/

section

variable {want : Ready} {at_ : Handshake → Pos} {access expired : State → State} {s : State}

theorem msrReady_eq_true_iff {m : Byte} : msrReady want m = true ↔ m.extractLsb' 6 2 = want.pattern := beq_iff_eq

theorem handshake_of_ready (hm : s.answer.extractLsb' 6 2 = want.pattern) :
    handshake want at_ access expired .poll s = { ioRead8 msrPort s with pos := at_ .access } := by
  rw [handshake, if_pos (msrReady_eq_true_iff.mpr hm)]

theorem handshake_of_not_ready (hm : s.answer.extractLsb' 6 2 ≠ want.pattern) (hp : s.polls ≠ Config.pollLimit) :
    handshake want at_ access expired .poll s = { ioRead8 msrPort s with pos := at_ .tick } := by
  rw [handshake, if_neg (mt msrReady_eq_true_iff.mp hm), if_neg hp]

theorem handshake_of_expired (hm : s.answer.extractLsb' 6 2 ≠ want.pattern) (hp : s.polls = Config.pollLimit) :
    handshake want at_ access expired .poll s = expired (ioRead8 msrPort s) := by
  rw [handshake, if_neg (mt msrReady_eq_true_iff.mp hm), if_pos hp]

end

/-! ## The three places of a handshake -/

section

variable {i : Instr} {h : Handshake} {s : State}

theorem isExchange_of_commandPhase_ne_nil (hne : commandPhase i ≠ []) : isExchange i = true := by
  simp [isExchange, hne]

theorem isExchange_of_resultCount_ne_zero (hne : resultCount i ≠ 0) : isExchange i = true := by
  simp [isExchange, hne]

theorem exec_of_send (hx : isExchange i = true) (hpos : s.pos = .send h) :
    exec i s = .next (sendStep (commandPhase i) (resultCount i) h s) := by
  simp only [exec_exchange i hx, exchange, hpos]

theorem exec_of_recv (hx : isExchange i = true) (hpos : s.pos = .recv h) :
    exec i s = .next (recvStep (commandPhase i).length (resultCount i) (exchangeStatus i) h s) := by
  simp only [exec_exchange i hx, exchange, hpos]

theorem exec_of_put {b : Byte} (hpos : s.pos = .put h) : exec (.ccWriteByte b) s = .next (putStep b h s) := by
  simp only [exec, execCcWriteByte, hpos]

end

/-- Settles O24: each place is a handshake, and its MSR read and its Tick do not depend on what the place does with the
FIFO. -/
theorem handshakePollsReadTheStatusAndTick : Obligations.HandshakePollsReadTheStatusAndTick := by
  intro i s at_ want hplace
  obtain ⟨ready, access, expired, rfl, hexec⟩ : ∃ (ready : Ready) (access expired : State → State),
      want = ready.pattern ∧ ∀ h, s.pos = at_ h → exec i s = .next (handshake ready at_ access expired h s) := by
    rcases hplace with ⟨hx, rfl, rfl⟩ | ⟨hx, rfl, rfl⟩ | ⟨⟨b, rfl⟩, rfl, rfl⟩
    · exact ⟨.forWrite, _, _, rfl, fun _ => exec_of_send hx⟩
    · exact ⟨.forRead, _, _, rfl, fun _ => exec_of_recv hx⟩
    · exact ⟨.forWrite, _, _, rfl, fun _ => exec_of_put⟩
  refine ⟨fun hpos hm => ?_, fun hpos hm hp => ?_, fun hpos => hexec .tick hpos⟩
  · rw [hexec .poll hpos, handshake_of_ready hm]; rfl
  · rw [hexec .poll hpos, handshake_of_not_ready hm hp]; rfl

/-! ## The events of a step -/

/-- s once these events are recorded; the port reads among them have left these answers of the oracle. -/
def observed (evs : List Event) (rest : List Byte) (s : State) : State :=
  { s with events := s.events ++ evs, oracle := rest, reads := s.reads + Reading.portReads evs }

theorem ioRead8_eq_observed (p : Port) (s : State) : ioRead8 p s = observed [.ioRd p s.answer] s.oracle.tail s := rfl

theorem ioWrite8_fifo_eq_observed (b : Byte) (s : State) :
    ioWrite8 fifoPort b s = observed [.ioWr 0x3F5 b] s.oracle s := by
  rw [ioWrite8, dmac_write_fifo]; rfl

theorem tick_eq_observed (s : State) : tick s = observed [.tick] s.oracle s := rfl

theorem logWriteTimeout_eq_observed (b : Byte) (s : State) :
    logWriteTimeout b s = observed [.log .writeTimeout b] s.oracle s := rfl

theorem observed_observed (evs evs' : List Event) (rest rest' : List Byte) (s : State) :
    observed evs' rest' (observed evs rest s) = observed (evs ++ evs') rest' s := by
  simp [observed, Reading.portReads, Nat.add_assoc]

theorem respond_observed (st : Status) (rb : Bytes7) (rw0 rw1 : Word32) (evs : List Event) (rest : List Byte)
    (s : State) :
    respond st rb rw0 rw1 (observed evs rest s) = { ended evs ⟨st, rb, rw0, rw1, s.opcode⟩ s with
      oracle := rest, reads := s.reads + Reading.portReads evs } := rfl

/-- Settles O25: the byte goes to the FIFO, which is no DMA port, and then comes what `sendAccess` says. -/
theorem sendWritesEachByteInOrder : Obligations.SendWritesEachByteInOrder := by
  intro i s b hpos hb
  have hne : commandPhase i ≠ [] := by rintro hnil; simp [hnil] at hb
  have hbyte : (commandPhase i).getD s.i 0 = b := by simp [hb]
  rw [exec_of_send (isExchange_of_commandPhase_ne_nil hne) hpos, sendStep, handshake, sendAccess, hbyte,
    ioWrite8_fifo_eq_observed]
  split_ifs <;> rfl

/-- Settles O26: the last MSR read, then `sendExpired` in the same step. -/
theorem sendTimeoutLogsAndStops : Obligations.SendTimeoutLogsAndStops := by
  intro i s b hpos hb hp hm
  have hne : commandPhase i ≠ [] := by rintro hnil; simp [hnil] at hb
  have hbyte : (commandPhase i).getD s.i 0 = b := by simp [hb]
  rw [exec_of_send (isExchange_of_commandPhase_ne_nil hne) hpos, sendStep, handshake_of_expired hm hp, sendExpired,
    ioRead8_i, hbyte, logWriteTimeout_eq_observed, ioRead8_eq_observed, observed_observed, respond_observed]
  rfl

/-- Settles O27: the byte is put in its place, and then comes what `recvAccess` says. -/
theorem readPutsEachByteInItsPosition : Obligations.ReadPutsEachByteInItsPosition := by
  intro i s hx hpos
  rw [exec_of_recv hx hpos, recvStep, handshake, recvAccess]
  split_ifs <;> rfl

/-- Settles O28: the last MSR read, then `recvExpired`; the invariant says what the positions not read hold. -/
theorem readTimeoutKeepsTheSentinels : Obligations.ReadTimeoutKeepsTheSentinels := by
  intro i s q hs ho hd hpos hp hm
  obtain ⟨-, hi, -, -, hres⟩ := (atStatementOf_recv hpos).mp ((atStatement_iff hd s).mp (hs.at_statement q ho))
  have hx : isExchange i = true := isExchange_of_resultCount_ne_zero (Nat.ne_zero_of_lt hi)
  refine ⟨?_, hres⟩
  rw [exec_of_recv hx hpos, recvStep, handshake_of_expired hm hp, recvExpired, ioRead8_res, ioRead8_i,
    ioRead8_eq_observed, respond_observed, opcode_of_op s q ho]
  rfl

/-- Settles O29: the FIFO access, the expiry, and the first MSR read of HS_WRITE, which cannot be the last. -/
theorem writeByteCompletesOrLogs : Obligations.WriteByteCompletesOrLogs := by
  intro b s
  refine ⟨fun hpos => ?_, fun hpos hp hm => ?_, fun hpos => ?_⟩
  · rw [exec_of_put hpos, putStep, handshake, putAccess, ioWrite8_fifo_eq_observed]
    rfl
  · rw [exec_of_put hpos, putStep, handshake_of_expired hm hp, putExpired, logWriteTimeout_eq_observed,
      ioRead8_eq_observed, observed_observed, respond_observed]
    rfl
  · have hexec : exec (.ccWriteByte b) s = .next (putStep b .poll { s with polls := 0 }) := by
      simp only [exec, execCcWriteByte, hpos]
    rw [hexec, putStep, handshake_first_poll (s := { s with polls := 0 }) rfl]
    rfl

end Sys2Proof.Machine
end

section
/-!
Whole operations (O31). `Machine/Reading.lean` reads each piece of pseudocode as a straight program, and each piece has
its lemma here: the run of the machine with as many steps as the piece has port accesses and Ticks ends where the piece
ends. HS_POLL is an induction on the Ticks left, SEND on the bytes left to send, READN on the bytes left to read.
-/

namespace Sys2Proof.Machine

/-! ## What each piece of pseudocode can do -/

/-- What HS_POLL can do: its first MSR read matches, or was its last, or is followed by a Tick and the rest of it. -/
theorem hsPoll_eq_some {bits : BitVec 2} {ticks : Nat} {answers : List Byte} {r : Reading.Ran Bool}
    (h : Reading.hsPoll bits ticks answers = some r) : ∃ m rest, answers = m :: rest ∧
      (m.extractLsb' 6 2 = bits ∧ r = ⟨[.ioRd 0x3F4 m], rest, true⟩ ∨
        m.extractLsb' 6 2 ≠ bits ∧ ticks = 0 ∧ r = ⟨[.ioRd 0x3F4 m], rest, false⟩ ∨
        m.extractLsb' 6 2 ≠ bits ∧ ∃ left r', ticks = left + 1 ∧ Reading.hsPoll bits left rest = some r' ∧
          r = ⟨[.ioRd 0x3F4 m, .tick] ++ r'.events, r'.rest, r'.value⟩) := by
  cases answers with
  | nil => simp [Reading.hsPoll] at h
  | cons m rest =>
    refine ⟨m, rest, rfl, ?_⟩
    unfold Reading.hsPoll at h
    split at h
    next hm => cases h; exact .inl ⟨hm, rfl⟩
    next hm =>
      cases ticks with
      | zero => cases h; exact .inr (.inl ⟨hm, rfl, rfl⟩)
      | succ left =>
        obtain ⟨r', hr', rfl⟩ := Option.map_eq_some_iff.mp h
        exact .inr (.inr ⟨hm, left, r', rfl, hr', rfl⟩)

theorem hsWrite_eq_some {b : Byte} {answers : List Byte} {r : Reading.Ran Bool}
    (h : Reading.hsWrite b answers = some r) : ∃ p, Reading.hsPoll 0b10 Config.pollLimit answers = some p ∧
      r = ⟨p.events ++ [if p.value then .ioWr 0x3F5 b else .log .writeTimeout b], p.rest, p.value⟩ := by
  unfold Reading.hsWrite at h
  split at h
  next => cases h
  next hp => cases h; exact ⟨_, hp, rfl⟩
  next hp => cases h; exact ⟨_, hp, rfl⟩

theorem hsRead_eq_some {answers : List Byte} {r : Reading.Ran (Option Byte)} (h : Reading.hsRead answers = some r) :
    ∃ p, Reading.hsPoll 0b11 Config.pollLimit answers = some p ∧
      (p.value = false ∧ r = ⟨p.events, p.rest, none⟩ ∨
        p.value = true ∧ ∃ v rest, p.rest = v :: rest ∧ r = ⟨p.events ++ [.ioRd 0x3F5 v], rest, some v⟩) := by
  unfold Reading.hsRead at h
  split at h
  next => cases h
  next => cases h
  next hp => cases h; exact ⟨_, hp, .inr ⟨rfl, _, _, rfl, rfl⟩⟩
  next hp => cases h; exact ⟨_, hp, .inl ⟨rfl, rfl⟩⟩

theorem send_cons_eq_some {b : Byte} {bs answers : List Byte} {r : Reading.Ran Nat}
    (h : Reading.send (b :: bs) answers = some r) : ∃ w, Reading.hsWrite b answers = some w ∧
      (w.value = false ∧ r = ⟨w.events, w.rest, 0⟩ ∨
        w.value = true ∧ ∃ r', Reading.send bs w.rest = some r' ∧
          r = ⟨w.events ++ r'.events, r'.rest, r'.value + 1⟩) := by
  unfold Reading.send at h
  split at h
  next => cases h
  next hw => cases h; exact ⟨_, hw, .inl ⟨rfl, rfl⟩⟩
  next hw =>
    obtain ⟨r', hr', rfl⟩ := Option.map_eq_some_iff.mp h
    exact ⟨_, hw, .inr ⟨rfl, r', hr', rfl⟩⟩

theorem readN_succ_eq_some {n : Nat} {answers : List Byte} {r : Reading.Ran (List Byte)}
    (h : Reading.readN (n + 1) answers = some r) : ∃ w, Reading.hsRead answers = some w ∧
      (w.value = none ∧ r = ⟨w.events, w.rest, []⟩ ∨
        ∃ v r', w.value = some v ∧ Reading.readN n w.rest = some r' ∧
          r = ⟨w.events ++ r'.events, r'.rest, v :: r'.value⟩) := by
  unfold Reading.readN at h
  split at h
  next => cases h
  next hw => cases h; exact ⟨_, hw, .inl ⟨rfl, rfl⟩⟩
  next hw =>
    obtain ⟨r', hr', rfl⟩ := Option.map_eq_some_iff.mp h
    exact ⟨_, hw, .inr ⟨_, r', rfl, hr', rfl⟩⟩

theorem send_value_le {bs answers : List Byte} {r : Reading.Ran Nat} (h : Reading.send bs answers = some r) :
    r.value ≤ bs.length := by
  induction bs generalizing answers r with
  | nil => cases h; rfl
  | cons b bs ih =>
    obtain ⟨w, -, ⟨-, rfl⟩ | ⟨-, r', hr', rfl⟩⟩ := send_cons_eq_some h
    · exact Nat.zero_le _
    · exact Nat.succ_le_succ (ih hr')

theorem readN_value_length_le {n : Nat} {answers : List Byte} {r : Reading.Ran (List Byte)}
    (h : Reading.readN n answers = some r) : r.value.length ≤ n := by
  induction n generalizing answers r with
  | zero => cases h; rfl
  | succ n ih =>
    obtain ⟨w, -, ⟨-, rfl⟩ | ⟨v, r', -, hr', rfl⟩⟩ := readN_succ_eq_some h
    · exact Nat.zero_le _
    · exact Nat.succ_le_succ (ih hr')

/-- What the pseudocode of an operation can do: SEND times out, or READN follows it. -/
theorem operation_eq_some {i : Instr} {op : Byte} {answers : List Byte} {r : Reading.Ran Response}
    (h : Reading.operation i op answers = some r) : ∃ w, Reading.send (Reading.sends i) answers = some w ∧
      (w.value < (Reading.sends i).length ∧ r = ⟨w.events, w.rest,
          ⟨.timeout, Reading.resultBytes (Reading.reads i) [], BitVec.ofNat 32 w.value, 0, op⟩⟩ ∨
        w.value = (Reading.sends i).length ∧ ∃ r', Reading.readN (Reading.reads i) w.rest = some r' ∧
          r = ⟨w.events ++ r'.events, r'.rest,
            ⟨if r'.value.length < Reading.reads i then .timeout else Reading.finalStatus i r'.value,
              Reading.resultBytes (Reading.reads i) r'.value, BitVec.ofNat 32 w.value,
              BitVec.ofNat 32 r'.value.length, op⟩⟩) := by
  unfold Reading.operation at h
  split at h
  next => cases h
  next w hw =>
    refine ⟨w, hw, ?_⟩
    split at h
    next hlt => cases h; exact .inl ⟨hlt, rfl⟩
    next hge =>
      refine .inr ⟨le_antisymm (send_value_le hw) (not_lt.mp hge), ?_⟩
      split at h
      next => cases h
      next r' hr' => cases h; exact ⟨r', hr', rfl⟩

/-! ## The steps of an operation that nothing interrupts -/

/-- The request q, whose instruction is i, is being carried out and nothing interrupts it. -/
structure InProgress (q : Request) (i : Instr) (s : State) : Prop where
  decoded : decodeRequest q = .ok i
  phase : s.phase = .busy
  op : s.op = some q
  schedule : s.schedule = []
  cmd : s.cmd = commandPhase i

theorem turn_of_schedule_nil {s : State} (h : s.schedule = []) : s.turn = .block := by
  rw [State.turn, h]; rfl

theorem takeTurn_of_schedule_nil {s : State} (h : s.schedule = []) : s.takeTurn = s := by
  rw [State.takeTurn, h, List.tail_nil, ← h]

section

variable {q : Request} {i : Instr} {s t u : State}

theorem InProgress.step_eq (hs : InProgress q i s) (hsend : ∀ h, s.pos = .send h → commandPhase i ≠ []) :
    step s = exec i s := by
  have ht : s.turn = .block := turn_of_schedule_nil hs.schedule
  obtain ⟨hrequest, hcommand⟩ := stepRunsTheFetchedInstruction
  cases hpos : s.pos with
  | send h =>
    obtain ⟨c, hc⟩ := commandOf_of_mem_commandPhase (List.length_pos_iff.mpr (hsend h hpos))
    rw [hcommand s q h c ht hs.phase hs.op hpos (by rw [hs.cmd, decodeCommand_commandPhase hc]), exec_commandOf hc,
      takeTurn_of_schedule_nil hs.schedule]
  | _ => rw [hrequest s q i ht hs.phase hs.op (by simp [hpos]) hs.decoded, takeTurn_of_schedule_nil hs.schedule]

/-- SEQ's first step of a request (R33). -/
theorem Starts.step_eq (hs : Starts q s) (hd : decodeRequest q = .ok i) : step s = exec i s := by
  obtain ⟨hphase, ho, ⟨hpos, -⟩, hsched⟩ := hs
  have ht : s.turn = .block := turn_of_schedule_nil hsched
  obtain ⟨hrequest, -⟩ := stepRunsTheFetchedInstruction
  rw [hrequest s q i ht hphase ho (by simp [hpos]) hd, takeTurn_of_schedule_nil hsched]

/-- A run that ends an operation may begin in any other state with the same first step. -/
theorem run_of_step_eq {k : Nat} (hst : step s = step t) (ht : t.phase = .busy) (hu : u.phase = .idle)
    (hrun : run k t = .next u) : run k s = .next u := by
  cases k with
  | zero => cases hrun; simp [ht] at hu
  | succ k =>
    have hcore : core.step s = core.step t := hst
    simpa only [run, Host.Core.run, hcore] using hrun

theorem run_steps_append {evs evs' : List Event} {k : Nat} (h : run (Reading.steps evs) s = .next t)
    (h' : run (Reading.steps evs' + k) t = .next u) : run (Reading.steps (evs ++ evs') + k) s = .next u := by
  rw [steps_append, Nat.add_assoc, run_add _ _ _ _ h, h']

theorem answer_of_oracle_cons {m : Byte} {rest : List Byte} (h : s.oracle = m :: rest) : s.answer = m := by
  simp only [State.answer, h]

theorem ioRead8_of_oracle_cons {p : Port} {m : Byte} {rest : List Byte} (h : s.oracle = m :: rest) :
    ioRead8 p s = observed [.ioRd p m] rest s := by
  rw [ioRead8_eq_observed, answer_of_oracle_cons h, h, List.tail_cons]

theorem observed_nil (s : State) : observed [] s.oracle s = s := by simp [observed, Reading.portReads]

end

/-! ## HS_POLL, HS_WRITE and HS_READ (R150 to R152) -/

/-- The operation polls at this place: a step there is one of the handshake, and neither its FIFO access nor its expiry
reads the poll counter or the position. -/
structure PollsAt (q : Request) (i : Instr) (want : Ready) (at_ : Handshake → Pos) (access expired : State → State) :
    Prop where
  step_eq : ∀ {h s}, InProgress q i s → s.pos = at_ h → step s = .next (handshake want at_ access expired h s)
  access_eq : ∀ polls pos s, access { s with polls := polls, pos := pos } = access s
  expired_eq : ∀ polls pos s, expired { s with polls := polls, pos := pos } = expired s

section

variable {q : Request} {i : Instr} {want : Ready} {at_ : Handshake → Pos} {access expired : State → State} {s : State}

/-- The other fields that the steps of an operation write may change. -/
theorem InProgress.of_local_writes (hs : InProgress q i s) (pos : Pos) (polls idx reads : Nat) (oracle : List Byte)
    (res : Bytes7) (events : List Event) :
    InProgress q i { s with
      pos := pos, polls := polls, i := idx, res := res, events := events, oracle := oracle, reads := reads } :=
  ⟨hs.decoded, hs.phase, hs.op, hs.schedule, hs.cmd⟩

theorem PollsAt.run_ready (hat : PollsAt q i want at_ access expired) (hs : InProgress q i s)
    (hpos : s.pos = at_ .poll) (hm : s.answer.extractLsb' 6 2 = want.pattern) :
    run 2 s = .next (access (ioRead8 msrPort s)) := by
  have hread := hat.step_eq hs hpos
  have haccess := hat.step_eq (s := { ioRead8 msrPort s with pos := at_ .access }) (hs.of_local_writes ..) rfl
  rw [handshake_of_ready hm] at hread
  rw [run_succ 1 hread, run_succ 0 haccess, run_zero, handshake, hat.access_eq _ _ (ioRead8 msrPort s)]

theorem PollsAt.run_expired (hat : PollsAt q i want at_ access expired) (hs : InProgress q i s)
    (hpos : s.pos = at_ .poll) (hm : s.answer.extractLsb' 6 2 ≠ want.pattern) (hp : s.polls = Config.pollLimit) :
    run 1 s = .next (expired (ioRead8 msrPort s)) := by
  rw [run_succ 0 (hat.step_eq hs hpos), handshake_of_expired hm hp, run_zero]

theorem PollsAt.run_not_ready (hat : PollsAt q i want at_ access expired) (hs : InProgress q i s)
    (hpos : s.pos = at_ .poll) (hm : s.answer.extractLsb' 6 2 ≠ want.pattern) (hp : s.polls ≠ Config.pollLimit) :
    run 2 s = .next { tick (ioRead8 msrPort s) with polls := s.polls + 1, pos := at_ .poll } := by
  have hread := hat.step_eq hs hpos
  have htick := hat.step_eq (s := { ioRead8 msrPort s with pos := at_ .tick }) (hs.of_local_writes ..) rfl
  rw [handshake_of_not_ready hm hp] at hread
  rw [run_succ 1 hread, run_succ 0 htick]
  rfl

/-- READY is followed by the step of the FIFO access; what follows EXPIRED is in the step of the last MSR read. -/
theorem PollsAt.run_hsPoll (hat : PollsAt q i want at_ access expired) (ticks : Nat) {s : State} {r : Reading.Ran Bool}
    (hs : InProgress q i s) (hpos : s.pos = at_ .poll) (hp : s.polls + ticks = Config.pollLimit)
    (hr : Reading.hsPoll want.pattern ticks s.oracle = some r) :
    run (Reading.steps r.events + if r.value then 1 else 0) s =
      .next ((if r.value then access else expired) (observed r.events r.rest s)) := by
  induction ticks using Nat.strong_induction_on generalizing s r with
  | h ticks ih =>
    obtain ⟨m, rest, ho, hcases⟩ := hsPoll_eq_some hr
    obtain rfl : s.answer = m := answer_of_oracle_cons ho
    have hread : ioRead8 msrPort s = observed [.ioRd 0x3F4 s.answer] rest s := ioRead8_of_oracle_cons ho
    rcases hcases with ⟨hm, rfl⟩ | ⟨hm, rfl, rfl⟩ | ⟨hm, left, r', rfl, hr', rfl⟩
    · exact hread ▸ hat.run_ready hs hpos hm
    · exact hread ▸ hat.run_expired hs hpos hm hp
    · have htick := hat.run_not_ready hs hpos hm (by omega)
      have hnext := ih left (Nat.lt_succ_self left)
        (s := { tick (ioRead8 msrPort s) with polls := s.polls + 1, pos := at_ .poll }) (hs.of_local_writes ..) rfl
        (by rw [← hp, Nat.add_assoc, Nat.add_comm 1]) (by rw [← hr', tick_oracle, ioRead8_oracle, ho, List.tail_cons])
      have hsum : observed r'.events r'.rest (tick (ioRead8 msrPort s)) =
          observed ([.ioRd 0x3F4 s.answer, .tick] ++ r'.events) r'.rest s := by
        rw [hread, tick_eq_observed, observed_observed, observed_observed]; rfl
      refine run_steps_append htick (hnext.trans (congrArg _ ?_))
      rw [← hsum]
      split
      · exact hat.access_eq _ _ (observed r'.events r'.rest (tick (ioRead8 msrPort s)))
      · exact hat.expired_eq _ _ (observed r'.events r'.rest (tick (ioRead8 msrPort s)))

/-- HS_WRITE ends with the step of the FIFO write, or in the step of the last MSR read with the Log event; `written` and
`logged` are what the place does after either. -/
theorem PollsAt.run_hsWrite (hat : PollsAt q i .forWrite at_ access expired) {b : Byte} {r : Reading.Ran Bool}
    {written logged : State → State} (hwritten : ∀ x, x.i = s.i → access x = written (ioWrite8 fifoPort b x))
    (hlogged : ∀ x, x.i = s.i → expired x = logged (logWriteTimeout b x)) (hs : InProgress q i s)
    (hpos : s.pos = at_ .poll) (hp : s.polls = 0) (hr : Reading.hsWrite b s.oracle = some r) :
    run (Reading.steps r.events) s = .next ((if r.value then written else logged) (observed r.events r.rest s)) := by
  obtain ⟨⟨evs, rest, ready⟩, hpoll, rfl⟩ := hsWrite_eq_some hr
  have hrun := hat.run_hsPoll Config.pollLimit hs hpos (by rw [hp, Nat.zero_add]) hpoll
  rw [steps_append]
  cases ready with
  | true =>
    refine hrun.trans (congrArg _ ((hwritten (observed evs rest s) rfl).trans ?_))
    rw [ioWrite8_fifo_eq_observed, observed_observed]
    rfl
  | false =>
    refine hrun.trans (congrArg _ ((hlogged (observed evs rest s) rfl).trans ?_))
    rw [logWriteTimeout_eq_observed, observed_observed]
    rfl

/-- HS_READ ends with the step of the FIFO read, or in the step of the last MSR read; `stored` is what the place does
with the byte read. -/
theorem PollsAt.run_hsRead (hat : PollsAt q i .forRead at_ access expired) {r : Reading.Ran (Option Byte)}
    {stored : Byte → State → State}
    (hstored : ∀ x, x.i = s.i → x.res = s.res → access x = stored x.answer (ioRead8 fifoPort x))
    (hs : InProgress q i s) (hpos : s.pos = at_ .poll) (hp : s.polls = 0)
    (hr : Reading.hsRead s.oracle = some r) :
    run (Reading.steps r.events) s = .next ((r.value.elim expired stored) (observed r.events r.rest s)) := by
  obtain ⟨⟨evs, answers, ready⟩, hpoll, hcases⟩ := hsRead_eq_some hr
  have hrun := hat.run_hsPoll Config.pollLimit hs hpos (by rw [hp, Nat.zero_add]) hpoll
  rcases hcases with ⟨rfl, rfl⟩ | ⟨rfl, v, rest, rfl, rfl⟩
  · exact hrun
  · rw [steps_append]
    refine hrun.trans (congrArg _ ((hstored (observed evs (v :: rest) s) rfl rfl).trans ?_))
    rw [ioRead8_of_oracle_cons (m := v) (rest := rest) rfl, observed_observed]
    rfl

/-! ## CC_WRITE_BYTE (R155) -/

theorem pollsAt_put {b : Byte} :
    PollsAt q (.ccWriteByte b) .forWrite .put (putAccess b) (putExpired b) where
  step_eq hs hpos := (hs.step_eq (by simp [hpos])).trans (exec_of_put hpos)
  access_eq _ _ _ := rfl
  expired_eq _ _ _ := rfl

theorem run_writeByte {b : Byte} {r : Reading.Ran Response} (hd : decodeRequest q = .ok (.ccWriteByte b))
    (hs : Starts q s) (hr : Reading.writeByte b (q.extractLsb' 0 8) s.oracle = some r) :
    run (Reading.steps r.events) s = .next { ended r.events r.value s with
      oracle := r.rest, reads := s.reads + Reading.portReads r.events } := by
  obtain ⟨w, hw, rfl⟩ := Option.map_eq_some_iff.mp hr
  have hstep := hs.step_eq hd
  obtain ⟨hphase, ho, ⟨hpos, -, -, -, hcmd, -⟩, hsched⟩ := hs
  have hin : InProgress q (.ccWriteByte b) { s with pos := .put .poll, polls := 0 } := ⟨hd, hphase, ho, hsched, hcmd⟩
  have hbegin : step s = step { s with pos := .put .poll, polls := 0 } := by
    rw [hstep, pollsAt_put.step_eq hin rfl]
    simp only [exec, execCcWriteByte, hpos]
    rfl
  have hrun := pollsAt_put.run_hsWrite (b := b) (fun _ _ => rfl) (fun _ _ => rfl) hin rfl rfl hw
  rw [← opcode_of_op s q ho]
  cases hv : w.value <;> rw [hv] at hrun <;> exact run_of_step_eq hbegin hphase rfl hrun

/-! ## SEND and READN (R180, R181) -/

theorem pollsAt_send (hne : commandPhase i ≠ []) :
    PollsAt q i .forWrite .send (sendAccess (commandPhase i) (resultCount i))
      (sendExpired (commandPhase i) (resultCount i)) where
  step_eq hs hpos := (hs.step_eq fun _ _ => hne).trans (exec_of_send (isExchange_of_commandPhase_ne_nil hne) hpos)
  access_eq _ _ _ := rfl
  expired_eq _ _ _ := rfl

theorem pollsAt_recv (hx : isExchange i = true) :
    PollsAt q i .forRead .recv (recvAccess (commandPhase i).length (resultCount i) (exchangeStatus i))
      (recvExpired (commandPhase i).length) where
  step_eq hs hpos := (hs.step_eq (by simp [hpos])).trans (exec_of_recv hx hpos)
  access_eq _ _ _ := rfl
  expired_eq _ _ _ := rfl

end

/-- READN goes on with i bytes read: it reads the next one, or the operation responds. -/
def recvFrom (i : Instr) (s : State) : State :=
  if s.i < resultCount i then { s with pos := .recv .poll, polls := 0 }
  else respond (exchangeStatus i s.res) s.res (BitVec.ofNat 32 (commandPhase i).length)
    (BitVec.ofNat 32 (resultCount i)) s

/-- SEND goes on with i bytes accepted: it sends the next one, or READN begins. -/
def sendFrom (i : Instr) (s : State) : State :=
  if s.i < (commandPhase i).length then { s with pos := .send .poll, polls := 0 }
  else recvFrom i { s with i := 0, res := rbUnread (resultCount i) }

/-- How SEND ends when k bytes were accepted: it timed out, or READN begins. -/
def sendEnd (i : Instr) (k : Nat) (s : State) : State :=
  if k < (commandPhase i).length then respond .timeout (rbUnread (resultCount i)) (BitVec.ofNat 32 k) 0 s
  else recvFrom i { s with i := 0, res := rbUnread (resultCount i) }

/-- How READN ends when these bytes were read. -/
def recvEnd (i : Instr) (bytes : List Byte) (s : State) : State :=
  respond (if bytes.length < resultCount i then .timeout
      else exchangeStatus i (Reading.resultBytes (resultCount i) bytes))
    (Reading.resultBytes (resultCount i) bytes) (BitVec.ofNat 32 (commandPhase i).length)
    (BitVec.ofNat 32 bytes.length) s

section

variable {q : Request} {i : Instr} {s : State}

theorem exchangeStatus_of_resultCount_zero (h : resultCount i = 0) (rb : Bytes7) : exchangeStatus i rb = .ok := by
  have hne : ¬ ((i = .seqVersion ∨ i = .fdcVersion) ∧ rb[0] = 0xFF) := by
    rintro ⟨rfl | rfl, -⟩ <;> cases h
  rw [exchangeStatus, if_neg hne]

theorem rbUnread_zero : rbUnread 0 = rbZero := by
  simp [rbUnread, rbZero, Vector.ext_iff]

theorem sendAccess_eq_sendFrom (s : State) : sendAccess (commandPhase i) (resultCount i) s =
    sendFrom i { ioWrite8 fifoPort ((commandPhase i).getD s.i 0) s with i := s.i + 1 } := by
  rw [sendAccess, sendFrom]
  split
  · rfl
  · split
    next h0 => rw [recvFrom, exchangeStatus_of_resultCount_zero h0, h0, rbUnread_zero]; rfl
    next h0 => rw [recvFrom, if_pos (Nat.pos_of_ne_zero h0)]; rfl

theorem recvAccess_eq_recvFrom (s : State) :
    recvAccess (commandPhase i).length (resultCount i) (exchangeStatus i) s =
      recvFrom i { ioRead8 fifoPort s with res := s.res.setIfInBounds s.i s.answer, i := s.i + 1 } := by
  rw [recvAccess, recvFrom]
  split <;> rfl

/-- A byte read goes to the position after the bytes read before it. -/
theorem resultBytes_setIfInBounds (n : Nat) (bytes : List Byte) (v : Byte) :
    (Reading.resultBytes n bytes).setIfInBounds bytes.length v = Reading.resultBytes n (bytes ++ [v]) := by
  refine Vector.ext fun j hj => ?_
  by_cases h : bytes.length = j
  · subst h; simp [Reading.resultBytes]
  · rw [Vector.getElem_setIfInBounds_ne hj h]
    simp only [Reading.resultBytes, Vector.getElem_ofFn, List.getD_eq_getElem?_getD]
    rcases Nat.lt_or_gt_of_ne h with hlt | hgt
    · rw [List.getElem?_eq_none hlt.le, List.getElem?_eq_none (by simp; omega)]
    · rw [List.getElem?_append_left hgt]

/-- With i bytes accepted, SEND of the others ends as the pseudocode does with the others. -/
theorem run_send (bs : List Byte) {sent : List Byte} {s : State} {r : Reading.Ran Nat} (hs : InProgress q i s)
    (hcmd : commandPhase i = sent ++ bs) (hi : s.i = sent.length) (hr : Reading.send bs s.oracle = some r) :
    run (Reading.steps r.events) (sendFrom i s) = .next (sendEnd i (s.i + r.value) (observed r.events r.rest s)) := by
  induction bs generalizing sent s r with
  | nil =>
    cases hr
    have hdone : ¬ s.i < (commandPhase i).length := by simp [hcmd, hi]
    rw [observed_nil, sendFrom, if_neg hdone, sendEnd, Nat.add_zero, if_neg hdone]
    rfl
  | cons b bs ih =>
    have hne : commandPhase i ≠ [] := by simp [hcmd]
    have hmore : s.i < (commandPhase i).length := by simp [hcmd, hi]
    have hbyte : (commandPhase i).getD s.i 0 = b := by simp [hcmd, hi]
    obtain ⟨w, hw, hcases⟩ := send_cons_eq_some hr
    have hrun := (pollsAt_send hne).run_hsWrite (s := { s with pos := .send .poll, polls := 0 }) (b := b)
      (written := fun x => sendFrom i { x with i := s.i + 1 })
      (logged := respond .timeout (rbUnread (resultCount i)) (BitVec.ofNat 32 s.i) 0)
      (fun x hx => by rw [sendAccess_eq_sendFrom, hx, hbyte]) (fun x hx => by rw [sendExpired, hx, hbyte])
      (hs.of_local_writes ..) rfl rfl hw
    rw [sendFrom, if_pos hmore]
    rcases hcases with ⟨hv, rfl⟩ | ⟨hv, r', hr', rfl⟩
    · rw [hv] at hrun
      rw [sendEnd, Nat.add_zero, if_pos hmore]
      exact hrun
    · rw [hv] at hrun
      have hrest := ih (sent := sent ++ [b]) (s := { observed w.events w.rest s with i := s.i + 1 })
        (hs.of_local_writes ..) (by simp [hcmd]) (by simp [hi]) hr'
      refine run_steps_append (k := 0) hrun (hrest.trans (congrArg _ ?_))
      rw [← observed_observed _ _ w.rest, Nat.add_comm r'.value, ← Nat.add_assoc]
      rfl

/-- With these bytes read, READN of the n others ends as the pseudocode does with n. -/
theorem run_readN (hx : isExchange i = true) (n : Nat) {bytes : List Byte} {s : State}
    {r : Reading.Ran (List Byte)} (hs : InProgress q i s) (hn : bytes.length + n = resultCount i)
    (hi : s.i = bytes.length) (hres : s.res = Reading.resultBytes (resultCount i) bytes)
    (hr : Reading.readN n s.oracle = some r) :
    run (Reading.steps r.events) (recvFrom i s) =
      .next (recvEnd i (bytes ++ r.value) (observed r.events r.rest s)) := by
  induction n generalizing bytes s r with
  | zero =>
    cases hr
    have hdone : ¬ s.i < resultCount i := by omega
    have hcount : bytes.length = resultCount i := hn
    rw [observed_nil, recvFrom, if_neg hdone, recvEnd, List.append_nil, hcount, if_neg (lt_irrefl _), hres]
    rfl
  | succ n ih =>
    have hmore : s.i < resultCount i := by omega
    obtain ⟨w, hw, hcases⟩ := readN_succ_eq_some hr
    have hrun := (pollsAt_recv hx).run_hsRead (s := { s with pos := .recv .poll, polls := 0 })
      (stored := fun v x => recvFrom i { x with res := s.res.setIfInBounds s.i v, i := s.i + 1 })
      (fun x hxi hxres => by rw [recvAccess_eq_recvFrom, hxi, hxres]) (hs.of_local_writes ..) rfl rfl hw
    rw [recvFrom, if_pos hmore]
    rcases hcases with ⟨hv, rfl⟩ | ⟨v, r', hv, hr', rfl⟩
    · rw [hv] at hrun
      rw [recvEnd, List.append_nil, if_pos (hi ▸ hmore), ← hres, ← hi]
      exact hrun
    · rw [hv] at hrun
      have hrest := ih (bytes := bytes ++ [v])
        (s := { observed w.events w.rest s with res := s.res.setIfInBounds s.i v, i := s.i + 1 })
        (hs.of_local_writes ..) (by simp; omega) (by simp [hi])
        (by rw [← resultBytes_setIfInBounds, ← hres, ← hi]) hr'
      refine run_steps_append (k := 0) hrun (hrest.trans (congrArg _ ?_))
      rw [← observed_observed _ _ w.rest, List.append_assoc, List.singleton_append]
      rfl

/-! ## Whole operations -/

/-- What `Machine/Reading.lean` writes out for an operation is what the operation sends, reads and answers. -/
structure ReadingAgrees (i : Instr) : Prop where
  sends : Reading.sends i = commandPhase i
  reads : Reading.reads i = resultCount i
  status : ∀ bytes : List Byte, bytes.length = resultCount i →
    Reading.finalStatus i bytes = exchangeStatus i (Reading.resultBytes (resultCount i) bytes)

theorem resultCount_pos_of_commandPhase_nil (hx : isExchange i = true) (hnil : commandPhase i = []) :
    0 < resultCount i :=
  Nat.pos_of_ne_zero (by simpa [isExchange, hnil] using hx)

/-- An operation begins with SEND at its first byte, or with READN at its first byte when it sends nothing. -/
theorem Starts.step_eq_sendFrom (hs : Starts q s) (hd : decodeRequest q = .ok i) (hx : isExchange i = true) :
    step s = step (sendFrom i { s with i := 0, cmd := commandPhase i }) := by
  rw [hs.step_eq hd, exec_exchange i hx]
  obtain ⟨hphase, ho, ⟨hpos, -, -, -, hcmd, -⟩, hsched⟩ := hs
  have hin : InProgress q i { s with i := 0, cmd := commandPhase i } := ⟨hd, hphase, ho, hsched, rfl⟩
  simp only [exchange, hpos, sendFrom]
  split
  next hnil =>
    have hcount : 0 < resultCount i := resultCount_pos_of_commandPhase_nil hx hnil
    rw [if_neg (by simp [hnil]), recvFrom, if_pos hcount, (pollsAt_recv hx).step_eq (hin.of_local_writes ..) rfl,
      hnil, ← hcmd]
    rfl
  next hcons =>
    have hne : commandPhase i ≠ [] := by simp [hcons]
    rw [if_pos (List.length_pos_iff.mpr hne), (pollsAt_send hne).step_eq (hin.of_local_writes ..) rfl]
    rfl

theorem sendFrom_phase (hx : isExchange i = true) (hi : s.i = 0) : (sendFrom i s).phase = s.phase := by
  rw [sendFrom]
  split
  next => rfl
  next hnone =>
    have hnil : commandPhase i = [] := by simpa [hi] using hnone
    rw [recvFrom, if_pos (resultCount_pos_of_commandPhase_nil hx hnil)]

/-- SEND, then READN unless SEND timed out. -/
theorem run_operation (hi : ReadingAgrees i) (hd : decodeRequest q = .ok i) (hx : isExchange i = true) (hs : Starts q s)
    {r : Reading.Ran Response} (hr : Reading.operation i (q.extractLsb' 0 8) s.oracle = some r) :
    run (Reading.steps r.events) s = .next { ended r.events r.value s with
      oracle := r.rest, reads := s.reads + Reading.portReads r.events } := by
  have hbegin := hs.step_eq_sendFrom hd hx
  obtain ⟨hphase, ho, -, hsched⟩ := hs
  have hin : InProgress q i { s with i := 0, cmd := commandPhase i } := ⟨hd, hphase, ho, hsched, rfl⟩
  have hbusy : (sendFrom i { s with i := 0, cmd := commandPhase i }).phase = .busy :=
    (sendFrom_phase hx rfl).trans hphase
  obtain ⟨w, hw, hcases⟩ := operation_eq_some hr
  rw [hi.sends] at hw hcases
  rw [hi.reads, ← opcode_of_op s q ho] at hcases
  have hsend := run_send (commandPhase i) (sent := []) hin rfl rfl hw
  rw [Nat.zero_add, sendEnd] at hsend
  rcases hcases with ⟨hlt, rfl⟩ | ⟨hall, r', hr', rfl⟩
  · rw [if_pos hlt] at hsend
    exact run_of_step_eq hbegin hbusy rfl hsend
  · rw [if_neg hall.not_lt] at hsend
    have hrecv := run_readN hx (resultCount i) (bytes := [])
      (s := { observed w.events w.rest { s with i := 0, cmd := commandPhase i } with
        i := 0, res := rbUnread (resultCount i) }) (hin.of_local_writes ..) (Nat.zero_add _) rfl rfl hr'
    have hstatus : (if r'.value.length < resultCount i then .timeout else Reading.finalStatus i r'.value) =
        if r'.value.length < resultCount i then .timeout
        else exchangeStatus i (Reading.resultBytes (resultCount i) r'.value) :=
      ite_congr rfl (fun _ => rfl)
        fun hge => hi.status r'.value (le_antisymm (readN_value_length_le hr') (not_lt.mp hge))
    refine run_of_step_eq hbegin hbusy rfl (run_steps_append (k := 0) hsend (hrecv.trans (congrArg _ ?_)))
    rw [hstatus, hall]
    show respond _ _ _ _ (observed r'.events r'.rest (observed w.events w.rest s)) = _
    rw [observed_observed, respond_observed]
    rfl

end

/-- Settles O31: CC_WRITE_BYTE is one HS_WRITE, and the other two are SEND and READN. -/
theorem commandChannelFollowsItsPseudocode : Obligations.CommandChannelFollowsItsPseudocode := by
  refine ⟨fun q b s r hd hs hr => run_writeByte hd hs hr, fun q i s r hd hi hs hr => ?_⟩
  rcases hi with rfl | rfl
  · exact run_operation ⟨rfl, rfl, fun _ _ => rfl⟩ hd rfl hs hr
  · exact run_operation ⟨rfl, rfl, fun _ _ => rfl⟩ hd rfl hs hr

end Sys2Proof.Machine
end

section
/-!
The sequencer run whole (O32). That the runs follow the pseudocode is `run_operation`; what is left is that
`Machine/Reading.lean` writes out, for each request, the bytes, the count and the status that the machine works with.
-/

namespace Sys2Proof.Machine

/-! ## The bytes, the count and the status of the pseudocode -/

/-- The shifted and joined CFG byte of R95 is the packed one. -/
theorem cfgByte_eq_shifts (eis efifo poll : BitVec 1) (thr : BitVec 4) :
    cfgByte eis efifo poll thr =
      (eis.setWidth 8 <<< 6) ||| (efifo.setWidth 8 <<< 5) ||| (poll.setWidth 8 <<< 4) ||| thr.setWidth 8 := by
  revert eis efifo poll thr; decide

theorem sends_eq_commandPhase {i : Instr} (hi : i.format = .req128) : Reading.sends i = commandPhase i := by
  obtain ⟨hsense, hseek, hrecalibrate, hread, hwrite, hversion, hconfigure, hlock⟩ := commandPhasesAreTheRuleBytes
  cases i with
  | ccSenseInterrupt => exact hsense.symm
  | seqSeek drive head cyl => exact (hseek drive head cyl).symm
  | seqRecalibrate drive => exact (hrecalibrate drive).symm
  | seqReadData drive head cyl sec => exact (hread drive head cyl sec).symm
  | seqWriteData drive head cyl sec => exact (hwrite drive head cyl sec).symm
  | seqVersion => exact hversion.symm
  | seqConfigure eis efifo poll thr pretrk =>
    rw [hconfigure]
    exact congrArg (fun cfg => [0x13, 0x00, cfg, pretrk]) (cfgByte_eq_shifts eis efifo poll thr).symm
  | seqLock => exact hlock.symm
  | irqWait | ccWriteByte | ccReadByte | seqReadResult | geoLbaToChs | geoChsToLba | dmaProgram | classify => rfl
  | _ => cases hi

theorem reads_eq_resultCount {i : Instr} (hi : i.format = .req128) : Reading.reads i = resultCount i := by
  cases i with
  | fdcSenseInterrupt | fdcVersion | fdcLock => cases hi
  | _ => rfl

/-- SEQ_VERSION reads one byte, so both readings of R194 look at that byte. -/
theorem finalStatus_eq_exchangeStatus {i : Instr} (hi : i.format = .req128) {bytes : List Byte}
    (hlen : bytes.length = resultCount i) :
    Reading.finalStatus i bytes = exchangeStatus i (Reading.resultBytes (resultCount i) bytes) := by
  cases i with
  | seqVersion =>
    obtain ⟨b, rfl⟩ := List.length_eq_one_iff.mp hlen
    simp [Reading.finalStatus, exchangeStatus, Reading.resultBytes]
  | fdcVersion => cases hi
  | _ => rfl

theorem readingAgrees_of_decodeRequest {q : Request} {i : Instr} (hd : decodeRequest q = .ok i) : ReadingAgrees i := by
  obtain ⟨-, -, hformat⟩ := encodeOfDecodeIsTheWord q i hd
  exact ⟨sends_eq_commandPhase hformat, reads_eq_resultCount hformat,
    fun _ hlen => finalStatus_eq_exchangeStatus hformat hlen⟩

/-- A valid SEQ_READ_RESULT reads at least one byte (R85 (c)). -/
theorem isExchange_seqReadResult {n : Byte} (hn : (Instr.seqReadResult n).wellFormed = true) :
    isExchange (.seqReadResult n) = true := by
  simp only [Instr.wellFormed, Bool.and_eq_true, decide_eq_true_eq] at hn
  exact isExchange_of_resultCount_ne_zero (Nat.ne_zero_of_lt hn.1)

/-- Settles O32: each of the eight is SEND and READN. -/
theorem sequencerFollowsItsPseudocode : Obligations.SequencerFollowsItsPseudocode := by
  intro q i s r hd hi hs hr
  have hx : isExchange i = true := by
    rcases hi with ⟨_, _, _, rfl⟩ | ⟨_, rfl⟩ | ⟨_, _, _, _, rfl⟩ | ⟨_, _, _, _, rfl⟩ | rfl | ⟨_, _, _, _, _, rfl⟩ |
      rfl | ⟨n, rfl⟩
    case inr.inr.inr.inr.inr.inr.inr => exact isExchange_seqReadResult (wellFormed_of_decodeRequest hd)
    all_goals rfl
  exact run_operation (readingAgrees_of_decodeRequest hd) hd hx hs hr

end Sys2Proof.Machine
end

section
/-!
NO_CONTROLLER (O51). The statuses that a step of an instruction can answer with are those of its row of R284. So only
SEQ_VERSION answers NO_CONTROLLER, and of its steps only the FIFO read does.
-/

namespace Sys2Proof.Machine

/-! ## Updates and the statuses they answer with -/

/-- The history of t is that of s with events added, and every response among them has one of these statuses. -/
def Answers (sts : List Status) (s t : State) : Prop :=
  ∃ evs, t.events = s.events ++ evs ∧ ∀ r, .resp r ∈ evs → r.status ∈ sts

section

variable {sts : List Status} {r s t : State}

theorem Answers.of_events_eq (h : t.events = s.events) : Answers sts s t :=
  ⟨[], by rw [h, List.append_nil], nofun⟩

theorem Answers.of_event {e : Event} (h : t.events = s.events ++ [e]) (he : ∀ r, .resp r ≠ e) : Answers sts s t :=
  ⟨[e], h, fun r hr => absurd (List.mem_singleton.mp hr) (he r)⟩

theorem Answers.trans (hrs : Answers sts r s) (hst : Answers sts s t) : Answers sts r t := by
  obtain ⟨evs, hevs, hresp⟩ := hrs
  obtain ⟨evs', hevs', hresp'⟩ := hst
  refine ⟨evs ++ evs', by rw [hevs', hevs, List.append_assoc], fun x hx => ?_⟩
  exact (List.mem_append.mp hx).elim (hresp x) (hresp' x)

/-- What a step adds to the history is read off in one way only. -/
theorem Answers.status_mem {evs : List Event} {x : Response} (h : Answers sts s t) (hevs : t.events = s.events ++ evs)
    (hx : .resp x ∈ evs) : x.status ∈ sts := by
  obtain ⟨evs', hevs', hresp⟩ := h
  obtain rfl : evs = evs' := List.append_cancel_left (hevs.symm.trans hevs')
  exact hresp x hx

theorem respond_answers {st : Status} (hst : st ∈ sts) (rb : Bytes7) (rw0 rw1 : Word32) (s : State) :
    Answers sts s (respond st rb rw0 rw1 s) := by
  refine ⟨_, respond_events st rb rw0 rw1 s, fun r hr => ?_⟩
  obtain rfl := Event.resp.inj (List.mem_singleton.mp hr)
  exact hst

theorem ioRead8_answers (p : Port) (s : State) : Answers sts s (ioRead8 p s) := .of_event (ioRead8_events p s) nofun

theorem ioWrite8_answers (p : Port) (v : Byte) (s : State) : Answers sts s (ioWrite8 p v s) :=
  .of_event (ioWrite8_events p v s) nofun

/-! ## The handshake, SEND and READN -/

theorem handshake_answers {want : Ready} {at_ : Handshake → Pos} {access expired : State → State} {h : Handshake}
    (haccess : h = .access → Answers sts s (access s)) (hexpired : ∀ x, Answers sts x (expired x)) :
    Answers sts s (handshake want at_ access expired h s) := by
  apply handshake_cases
  case ready => exact fun _ _ => ioRead8_answers msrPort s
  case out => exact fun _ _ _ => (ioRead8_answers msrPort s).trans (hexpired _)
  case again => exact fun _ _ _ => ioRead8_answers msrPort s
  case ticked => exact fun _ => .of_event (tick_events s) nofun
  case accessed => exact haccess

/-- A write handshake that times out logs its byte and responds. -/
theorem writeTimeout_answers (htimeout : .timeout ∈ sts) (b : Byte) (rb : Bytes7) (rw0 : Word32) (s : State) :
    Answers sts s (respond .timeout rb rw0 0 (logWriteTimeout b s)) :=
  (Answers.of_event (logWriteTimeout_events b s) nofun).trans (respond_answers htimeout ..)

theorem sendAccess_answers (hok : .ok ∈ sts) (cmd : List Byte) (n : Nat) (s : State) :
    Answers sts s (sendAccess cmd n s) := by
  have hwrite : Answers sts s (ioWrite8 fifoPort (cmd.getD s.i 0) s) := ioWrite8_answers ..
  unfold sendAccess
  split
  · exact hwrite
  · split
    · exact hwrite.trans (respond_answers hok ..)
    · exact hwrite

theorem recvAccess_answers {done : Bytes7 → Status} (hdone : done (s.res.setIfInBounds s.i s.answer) ∈ sts)
    (sent n : Nat) : Answers sts s (recvAccess sent n done s) := by
  have hread : Answers sts s (ioRead8 fifoPort s) := ioRead8_answers ..
  unfold recvAccess
  split
  · exact hread
  · exact hread.trans (respond_answers hdone ..)

theorem sendStep_answers (hok : .ok ∈ sts) (htimeout : .timeout ∈ sts) (cmd : List Byte) (n : Nat) (h : Handshake)
    (s : State) : Answers sts s (sendStep cmd n h s) :=
  handshake_answers (fun _ => sendAccess_answers hok cmd n s) fun _ => writeTimeout_answers htimeout ..

/-- Only the FIFO read looks at the result bytes. -/
theorem recvStep_answers (htimeout : .timeout ∈ sts) {done : Bytes7 → Status} {h : Handshake}
    (hdone : h = .access → done (s.res.setIfInBounds s.i s.answer) ∈ sts) (sent n : Nat) :
    Answers sts s (recvStep sent n done h s) :=
  handshake_answers (fun ha => recvAccess_answers (hdone ha) sent n) fun _ => respond_answers htimeout ..

theorem exchange_answers (hok : .ok ∈ sts) (htimeout : .timeout ∈ sts) {done : Bytes7 → Status}
    (hdone : s.pos = .recv .access → done (s.res.setIfInBounds s.i s.answer) ∈ sts) (cmd : List Byte) (n : Nat) :
    Answers sts s (exchange cmd n done s) := by
  apply exchange_cases
  case sending => rintro h s' (⟨-, rfl⟩ | ⟨-, -, rfl⟩) <;> exact sendStep_answers hok htimeout cmd n h _
  case receiving =>
    rintro h s' (⟨hpos, rfl⟩ | ⟨-, rfl, rfl⟩)
    · exact recvStep_answers htimeout (fun ha => hdone (ha ▸ hpos)) cmd.length n
    · exact recvStep_answers (s := startRecv n s) (h := .poll) htimeout nofun cmd.length n

/-! ## The other instructions -/

theorem putStep_answers (hok : .ok ∈ sts) (htimeout : .timeout ∈ sts) (b : Byte) (h : Handshake) (s : State) :
    Answers sts s (putStep b h s) :=
  handshake_answers (fun _ => (ioWrite8_answers ..).trans (respond_answers hok ..))
    fun _ => writeTimeout_answers htimeout ..

theorem irqCheck_answers (hok : .ok ∈ sts) (htimeout : .timeout ∈ sts) (s : State) : Answers sts s (irqCheck s) := by
  unfold irqCheck
  split
  · exact respond_answers hok (rbOf [1]) 0 0 { s with irqFlag := false }
  · split
    · exact respond_answers htimeout (rbOf [0]) 0 0 { s with irqFlag := false }
    · exact .of_events_eq rfl

theorem dmaStep_answers (hok : .ok ∈ sts) (addr count : Word32) (dir : Direction) (i : Nat) (s : State) :
    Answers sts s (dmaStep addr count dir i s) := by
  unfold dmaStep
  split
  · split
    · exact ioWrite8_answers _ _ s
    · exact (ioWrite8_answers _ _ s).trans (respond_answers hok ..)
  · exact respond_answers hok ..

theorem execIrqWait_answers {τ : BitVec 16} (h : exec (.irqWait τ) s = .next t) : Answers [.ok, .timeout] s t := by
  obtain ⟨⟩ := h
  split
  · exact irqCheck_answers (by simp) (by simp) s
  · exact .of_event (tick_events s) nofun
  · exact irqCheck_answers (by simp) (by simp) { s with remaining := τ }

theorem execCcWriteByte_answers {b : Byte} (h : exec (.ccWriteByte b) s = .next t) : Answers [.ok, .timeout] s t := by
  obtain ⟨⟩ := h
  split
  · exact putStep_answers (by simp) (by simp) b _ s
  · exact putStep_answers (by simp) (by simp) b .poll { s with polls := 0 }

theorem execDmaProgram_answers {addr count : Word32} {dir : Direction}
    (h : exec (.dmaProgram addr count dir) s = .next t) : Answers [.ok] s t := by
  obtain ⟨⟩ := h
  split
  · exact dmaStep_answers (by simp) ..
  · split
    · exact .of_event (raiseFault_events _ s) nofun
    · exact dmaStep_answers (by simp) ..

theorem execGeoChsToLba_answers {cyl : Word32} {head sec : Byte} (h : exec (.geoChsToLba cyl head sec) s = .next t) :
    Answers [.ok, .invalidChs] s t := by
  obtain ⟨⟩ := h
  split <;> exact respond_answers (by simp) ..

/-! ## Every instruction -/

theorem ok_mem_possibleStatuses (i : Instr) : .ok ∈ possibleStatuses i := by
  cases i <;> exact List.mem_cons_self

theorem timeout_mem_possibleStatuses {i : Instr} (hx : isExchange i = true) : .timeout ∈ possibleStatuses i := by
  cases i with
  | irqWait | ccWriteByte | geoLbaToChs | geoChsToLba | dmaProgram | classify => cases hx
  | _ => simp [possibleStatuses]

theorem exchangeStatus_mem_possibleStatuses (i : Instr) (rb : Bytes7) : exchangeStatus i rb ∈ possibleStatuses i := by
  unfold exchangeStatus
  split
  next h => obtain ⟨rfl | rfl, -⟩ := h <;> simp [possibleStatuses]
  next => exact ok_mem_possibleStatuses i

/-- R284: a step of an instruction answers only with the statuses of its row. -/
theorem exec_answers {i : Instr} (h : exec i s = .next t) : Answers (possibleStatuses i) s t := by
  rcases isExchange_or i with hx | ⟨τ, rfl⟩ | ⟨b, rfl⟩ | ⟨lba, rfl⟩ | ⟨c, hd, sec, rfl⟩ | ⟨a, c, d, rfl⟩ |
    ⟨a, b, c, rfl⟩ | rfl
  · rw [exec_exchange i hx] at h
    obtain ⟨⟩ := h
    exact exchange_answers (ok_mem_possibleStatuses i) (timeout_mem_possibleStatuses hx)
      (fun _ => exchangeStatus_mem_possibleStatuses i _) ..
  · exact execIrqWait_answers h
  · exact execCcWriteByte_answers h
  · obtain ⟨⟩ := h
    exact respond_answers (ok_mem_possibleStatuses (.geoLbaToChs lba)) ..
  · exact execGeoChsToLba_answers h
  · exact execDmaProgram_answers h
  · obtain ⟨⟩ := h
    exact respond_answers (ok_mem_possibleStatuses (.classify a b c)) ..
  · obtain ⟨⟩ := h
    exact exchange_answers (done := alwaysOk) (by simp [possibleStatuses]) (by simp [possibleStatuses])
      (fun _ => by simp [possibleStatuses, alwaysOk]) ..

/-! ## One step -/

/-- A step that responds is that of an illegal request word, or a step of the held request. -/
theorem Consistent.step_responds {evs : List Event} {x : Response} (hs : Consistent s) (h : step s = .next t)
    (hevs : t.events = s.events ++ evs) (hx : .resp x ∈ evs) :
    x.status = .illegalRequest ∨
      ∃ q i, s.op = some q ∧ decodeRequest q = .ok i ∧ exec i s.takeTurn = .next t := by
  have hnone : Answers [] s t → False := fun hno => absurd (hno.status_mem hevs hx) List.not_mem_nil
  rcases step_cases h with ⟨-, rfl⟩ | ⟨-, rfl⟩ | ⟨-, -, q, qs, -, rfl⟩ | ⟨-, -, q, -, -, -, rfl⟩ |
    ⟨-, -, q, i, ho, -, hd, hexec⟩ | ⟨ht, -, q, hh, c, ho, hpos, -, -⟩
  · exact (hnone (.of_event (congrArg State.events (irqSignal_eq _)) (irqSignal_event_ne_resp s.irqFlag))).elim
  · exact (hnone (.of_event (resetBlock_events _) nofun)).elim
  · exact (hnone (.of_events_eq rfl)).elim
  · have hill : Answers [.illegalRequest] s (refuseRequest s.takeTurn) :=
      respond_answers List.mem_cons_self rbZero 0 0 s.takeTurn
    exact .inl (List.mem_singleton.mp (hill.status_mem hevs hx))
  · exact .inr ⟨q, i, ho, hd, hexec⟩
  · have hstmt : AtStatement q s := hs.at_statement q ho
    obtain ⟨i, hd, -⟩ : ∃ i, decodeRequest q = .ok i ∧ _ := by simpa only [AtStatement, hpos] using hstmt
    exact .inr ⟨q, i, ho, hd, (everyStatementIsAStepOfTheRequest s q i hs ht ho hd).symm.trans h⟩

/-! ## SEQ_VERSION (R194, R195) -/

theorem eq_seqVersion_of_noController {i : Instr} (hi : i.format = .req128) (h : .noController ∈ possibleStatuses i) :
    i = .seqVersion := by
  cases i with
  | seqVersion => rfl
  | fdcVersion => cases hi
  | _ => simp [possibleStatuses] at h

/-- Of the steps of SEQ_VERSION only the FIFO read of its result byte answers anything but OK and TIMEOUT. -/
theorem pos_of_seqVersion_noController {evs : List Event} {x : Response} (h : exec .seqVersion s = .next t)
    (hevs : t.events = s.events ++ evs) (hx : .resp x ∈ evs) (hst : x.status = .noController) :
    s.pos = .recv .access := by
  by_contra hpos
  have hans : Answers [.ok, .timeout] s (exchange (commandPhase .seqVersion) 1 versionStatus s) :=
    exchange_answers (by simp) (by simp) (fun ha => absurd ha hpos) ..
  obtain ⟨⟩ := h
  simpa [hst] using hans.status_mem hevs hx

theorem exchangeStatus_seqVersion : exchangeStatus .seqVersion = versionStatus := by
  funext rb; simp [exchangeStatus, versionStatus]

/-- The response of SEQ_VERSION whose result byte is the oracle's next answer (R194). -/
def versionResponse (s : State) : Response :=
  ⟨versionStatus #v[s.answer, 0, 0, 0, 0, 0, 0], #v[s.answer, 0, 0, 0, 0, 0, 0], 1, 1, s.opcode⟩

theorem answer_eq_of_versionResponse_noController (h : (versionResponse s).status = .noController) :
    s.answer = 0xFF := by
  by_contra hne
  cases (if_neg hne).symm.trans h

/-- The one result byte goes to RB[0], and the invariant holds the rest of RB at 0. -/
theorem res_setIfInBounds_of_seqVersion {h : Handshake} (hs : AtStatementOf .seqVersion s) (hpos : s.pos = .recv h)
    (v : Byte) : s.i = 0 ∧ s.res.setIfInBounds s.i v = #v[v, 0, 0, 0, 0, 0, 0] := by
  obtain ⟨-, hi, -, -, hres⟩ := (atStatementOf_recv hpos).mp hs
  have hi0 : s.i = 0 := Nat.lt_one_iff.mp hi
  have hunread : s.res = Reading.resultBytes 1 [] := Vector.ext fun j hj => by
    rw [Reading.resultBytes, Vector.getElem_ofFn]
    exact hres ⟨j, hj⟩ (hi0 ▸ Nat.zero_le j)
  rw [hi0, hunread]
  exact ⟨rfl, resultBytes_setIfInBounds 1 [] v⟩

/-- The FIFO read of SEQ_VERSION is its last step. -/
theorem events_of_seqVersion_read (hs : AtStatementOf .seqVersion s) (hpos : s.pos = .recv .access)
    (h : exec .seqVersion s = .next t) : t.events = s.events ++ [.ioRd 0x3F5 s.answer, .resp (versionResponse s)] := by
  obtain ⟨hi, hres⟩ := res_setIfInBounds_of_seqVersion hs hpos s.answer
  have hlast : ¬ s.i + 1 < resultCount .seqVersion := by simp [hi, resultCount]
  rw [readPutsEachByteInItsPosition .seqVersion s rfl hpos, if_neg hlast, hres, exchangeStatus_seqVersion] at h
  cases h
  exact List.append_assoc ..

/-- Settles O51: by its row of R284 only SEQ_VERSION can answer NO_CONTROLLER, and of its steps only the FIFO read of the
result byte does. -/
theorem noControllerOnlyAfterReadingFF : Obligations.NoControllerOnlyAfterReadingFF := by
  intro s t x evs hs h hevs hx hst
  obtain ⟨q, i, ho, hd, hexec⟩ := (hs.step_responds h hevs hx).resolve_left (by simp [hst])
  obtain ⟨-, -, hformat⟩ := encodeOfDecodeIsTheWord q i hd
  obtain rfl := eq_seqVersion_of_noController hformat (hst ▸ (exec_answers hexec).status_mem hevs hx)
  have hpos : s.takeTurn.pos = .recv .access := pos_of_seqVersion_noController hexec hevs hx hst
  have hstmt : AtStatementOf .seqVersion s.takeTurn := (atStatement_iff hd s).mp (hs.at_statement q ho)
  have hread := events_of_seqVersion_read hstmt hpos hexec
  obtain rfl := List.append_cancel_left (hevs.symm.trans hread)
  obtain rfl : x = versionResponse s.takeTurn := by simpa using hx
  have hff : s.takeTurn.answer = 0xFF := answer_eq_of_versionResponse_noController hst
  exact ⟨hff, by rw [hff], by rw [versionResponse, hff], rfl, rfl⟩

end

end Sys2Proof.Machine
end

section
/-!
GeometryTranslator (O34 to O37). A triple is the CHS of an LBA exactly when it is in range and the LBA is its formula.
The two round trips are the two directions of the bijection of R226, which follows from that.
-/

namespace Sys2Proof.Machine

/-! ## The formulas, for any number of sectors per track -/

section

variable {spt lba c h s v : Nat}

theorem chsOf_eq_iff (hspt : 0 < spt) :
    chsOf spt v = (c, h, s) ↔ (h ≤ 1 ∧ 1 ≤ s ∧ s ≤ spt) ∧ (c * 2 + h) * spt + (s - 1) = v := by
  have hformula : s - 1 + spt * h + 2 * spt * c = (c * 2 + h) * spt + (s - 1) := by ring
  simp only [chsOf, Prod.mk.injEq]
  constructor
  · rintro ⟨hc, hh, hs⟩
    obtain ⟨htrack, hsec⟩ := (Nat.div_mod_unique hspt).mp ⟨hh, Nat.eq_sub_of_add_eq hs⟩
    obtain ⟨hv, hcyl⟩ := (Nat.div_mod_unique (Nat.mul_pos two_pos hspt)).mp ⟨hc, htrack.symm⟩
    have hhead : h < 2 := hh ▸ Nat.div_lt_of_lt_mul (Nat.mul_comm 2 spt ▸ Nat.mod_lt v (Nat.mul_pos two_pos hspt))
    exact ⟨by omega, hformula ▸ hv⟩
  · rintro ⟨⟨hh, hs, hle⟩, hv⟩
    have hsec : s - 1 < spt := by omega
    have htrack : s - 1 + spt * h < 2 * spt := by linarith [Nat.mul_le_mul_left spt hh]
    obtain ⟨hc, hmod⟩ := (Nat.div_mod_unique (Nat.mul_pos two_pos hspt)).mpr ⟨hformula.trans hv, htrack⟩
    obtain ⟨hdiv, hrem⟩ := (Nat.div_mod_unique hspt).mpr ⟨rfl, hsec⟩
    exact ⟨hc, by rw [hmod, hdiv], by rw [hmod, hrem, Nat.sub_add_cancel hs]⟩

theorem lbaOf_eq_some_iff :
    lbaOf spt c h s = some v ↔
      ((h ≤ 1 ∧ 1 ≤ s ∧ s ≤ spt) ∧ (c * 2 + h) * spt + (s - 1) = v) ∧ v < 2 ^ 32 := by
  unfold lbaOf
  split
  next hout => exact iff_of_false nofun (by omega)
  next hin =>
    split
    next hbig => exact iff_of_false nofun (by omega)
    next hfits => rw [Option.some.injEq]; omega

/-- R226: the accepted triples and the 32-bit LBAs correspond one to one. -/
theorem lbaOf_eq_some_iff_chsOf (hspt : 0 < spt) :
    lbaOf spt c h s = some v ↔ chsOf spt v = (c, h, s) ∧ v < 2 ^ 32 := by
  rw [lbaOf_eq_some_iff, chsOf_eq_iff hspt]

theorem lbaOf_chsOf (hspt : 0 < spt) (hlba : lba < 2 ^ 32) :
    lbaOf spt (chsOf spt lba).1 (chsOf spt lba).2.1 (chsOf spt lba).2.2 = some lba :=
  (lbaOf_eq_some_iff_chsOf hspt).mpr ⟨rfl, hlba⟩

theorem chsOf_in_range (hspt : 0 < spt) (lba : Nat) :
    (chsOf spt lba).2.1 ≤ 1 ∧ 1 ≤ (chsOf spt lba).2.2 ∧ (chsOf spt lba).2.2 ≤ spt :=
  ((chsOf_eq_iff hspt).mp rfl).1

end

/-- Settles O37, by one direction of the bijection. -/
theorem chsToLbaToChsIsTheIdentity : Obligations.ChsToLbaToChsIsTheIdentity :=
  fun _ _ _ _ _ hspt _ hv => (lbaOf_eq_some_iff_chsOf hspt).mp hv

/-! ## The requests, at SPT = 18 -/

/-- Settles O34: the formula of R220 is the response. -/
theorem lbaToChsAnswersTheFormula : Obligations.LbaToChsAnswersTheFormula :=
  fun _ s => congrArg Host.Outcome.next (respond_eq_ended _ _ _ _ s)

theorem exec_geoChsToLba_of_some {cyl : Word32} {head sec : Byte} {v : Nat}
    (hv : lbaOf 18 cyl.toNat head.toNat sec.toNat = some v) (s : State) :
    exec (.geoChsToLba cyl head sec) s =
      .next (ended [] ⟨.ok, #v[0, 0, 0, 0, 0, 0, 0], BitVec.ofNat 32 v, 0, s.opcode⟩ s) := by
  simp only [exec, execGeoChsToLba, Config.spt, hv, respond_eq_ended, rbZero_eq]

theorem exec_geoChsToLba_of_none {cyl : Word32} {head sec : Byte}
    (hv : lbaOf 18 cyl.toNat head.toNat sec.toNat = none) (s : State) :
    exec (.geoChsToLba cyl head sec) s =
      .next (ended [] ⟨.invalidChs, #v[0, 0, 0, 0, 0, 0, 0], 0, 0, s.opcode⟩ s) := by
  simp only [exec, execGeoChsToLba, Config.spt, hv, respond_eq_ended, rbZero_eq]

/-- Settles O35: the domain is that of `lbaOf`. -/
theorem chsToLbaAnswersOrRejects : Obligations.ChsToLbaAnswersOrRejects := by
  intro cyl head sec s
  split
  next hout =>
    refine exec_geoChsToLba_of_none (Option.eq_none_iff_forall_ne_some.mpr fun v hv => ?_) s
    obtain ⟨⟨hin, heq⟩, hlt⟩ := lbaOf_eq_some_iff.mp hv
    omega
  next hin => exact exec_geoChsToLba_of_some (lbaOf_eq_some_iff.mpr ⟨⟨by omega, rfl⟩, by omega⟩) s

theorem ended_response_injective {evs : List Event} {s : State} {r r' : Response}
    (h : ended evs r s = ended evs r' s) : r = r' := by
  have hevents : s.events ++ evs ++ [.resp r] = s.events ++ evs ++ [.resp r'] := congrArg State.events h
  simpa using hevents

/-- The cylinder of every 32-bit LBA fits in 32 bits, and its head and sector in a byte each (R221). -/
theorem toNat_of_chsOf (lba : Word32) :
    ((BitVec.ofNat 32 (chsOf 18 lba.toNat).1).toNat, (BitVec.ofNat 8 (chsOf 18 lba.toNat).2.1).toNat,
      (BitVec.ofNat 8 (chsOf 18 lba.toNat).2.2).toNat) = chsOf 18 lba.toNat := by
  have hlba : lba.toNat < 2 ^ 32 := lba.isLt
  simp only [chsOf, BitVec.toNat_ofNat, Prod.mk.injEq]
  omega

/-- Settles O36: the formulas by the other direction of the bijection; the requests because what GEO_LBA_TO_CHS answers
is not truncated. -/
theorem lbaToChsToLbaIsTheIdentity : Obligations.LbaToChsToLbaIsTheIdentity := by
  constructor
  · intro spt lba hspt _ hlba
    obtain ⟨hhead, hpos, hle⟩ := chsOf_in_range hspt lba
    exact ⟨hhead, hpos, hle, lbaOf_chsOf hspt hlba⟩
  · intro lba cyl rw1 head sec b2 b3 b4 b5 b6 op s h
    have hresponse := ended_response_injective (Host.Outcome.next.inj ((lbaToChsAnswersTheFormula lba s).symm.trans h))
    obtain ⟨-, hrb, hcyl, -, -⟩ := Response.mk.inj hresponse
    obtain rfl := hcyl
    obtain rfl := congrArg (·[0]) hrb
    obtain rfl := congrArg (·[1]) hrb
    have hv := (lbaOf_eq_some_iff_chsOf (by decide)).mpr ⟨(toNat_of_chsOf lba).symm, lba.isLt⟩
    exact (exec_geoChsToLba_of_some hv s).trans (by rw [BitVec.ofNat_toNat, BitVec.setWidth_eq])

end Sys2Proof.Machine
end

section
/-!
DmaProgrammer (O38, O39, O40). The first statement of DMA_PROGRAM checks and makes write 0; every later statement makes
the write its index names. Both are `dmaStep`, so one lemma says what the statement at write n does. A run is an
induction over the writes made so far, and what they leave in the channel is a fold of `Dmac.write` over them.
-/

namespace Sys2Proof.Machine

/-! ## The preconditions (R241) -/

theorem dmaCheck_eq_none_iff {addr count : Word32} :
    dmaCheck addr count = none ↔ addr.toNat < 2 ^ 24 ∧ count.toNat ≠ 0 ∧ count.toNat - 1 < 2 ^ 16 ∧
      addr.toNat % 2 ^ 16 + (count.toNat - 1) < 2 ^ 16 := by
  unfold dmaCheck
  split_ifs <;> simp <;> omega

theorem exec_dmaProgram_of_fault {addr count : Word32} {dir : Direction} {reason : FaultReason} {s : State}
    (hpos : s.pos = .first) (hc : dmaCheck addr count = some reason) :
    exec (.dmaProgram addr count dir) s = .next (faultedWith reason s) := by
  simp only [exec, execDmaProgram, hpos, hc, raiseFault_eq_faultedWith]

/-- Settles O38: `dmaCheck` answers the reason of its first condition that holds. -/
theorem dmaPreconditionsFaultInOrder : Obligations.DmaPreconditionsFaultInOrder := by
  intro addr count dir s hpos
  refine ⟨fun haddr => ?_, fun haddr hcount => ?_, fun haddr h0 hcount hbound => ?_⟩
  · exact exec_dmaProgram_of_fault hpos (if_pos haddr)
  · refine exec_dmaProgram_of_fault hpos ?_
    rw [dmaCheck, if_neg (by omega), if_pos hcount]
  · refine exec_dmaProgram_of_fault hpos ?_
    rw [dmaCheck, if_neg (by omega), if_neg (by omega), if_pos hbound]

/-! ## The statement at each write (R242) -/

/-- SEQ is at write n of DMA_PROGRAM: at the first statement, with the preconditions met, or at a later one. -/
def AtWrite (addr count : Word32) (n : Nat) (s : State) : Prop :=
  s.pos = .first ∧ n = 0 ∧ dmaCheck addr count = none ∨ s.pos = .dma ∧ n = s.i

section

variable {addr count : Word32} {dir : Direction} {n : Nat} {p : Port} {v : Byte} {s : State}

theorem exec_dmaProgram_of_atWrite (ha : AtWrite addr count n s) :
    exec (.dmaProgram addr count dir) s = .next (dmaStep addr count dir n s) := by
  rcases ha with ⟨hpos, rfl, hc⟩ | ⟨hpos, rfl⟩
  · simp only [exec, execDmaProgram, hpos, hc]
  · simp only [exec, execDmaProgram, hpos]

/-- A write with more to come. -/
theorem dmaStep_of_more (hw : (dmaWrites addr count dir)[n]? = some (p, v)) (hn : n + 1 < 10) (s : State) :
    dmaStep addr count dir n s =
      { s with pos := .dma, i := n + 1, dmac := s.dmac.write p v, events := s.events ++ [.ioWr p v] } := by
  rw [dmaStep, hw]
  exact if_pos hn

/-- The last write. -/
theorem dmaStep_of_last (hw : (dmaWrites addr count dir)[n]? = some (p, v)) (hn : ¬ n + 1 < 10) (s : State) :
    dmaStep addr count dir n s =
      { ended [.ioWr p v] ⟨.ok, #v[0, 0, 0, 0, 0, 0, 0], 0, 0, s.opcode⟩ s with dmac := s.dmac.write p v } := by
  rw [dmaStep, hw]
  exact if_neg hn

end

/-- Settles O40: the position is kept by a write with more to come. -/
theorem dmaStepsWriteOnePortEach : Obligations.DmaStepsWriteOnePortEach := by
  intro addr count dir s p v hpos hw
  rw [exec_dmaProgram_of_atWrite (.inr ⟨hpos, rfl⟩)]
  split_ifs with hi
  · rw [dmaStep_of_more hw hi, ← hpos]
  · rw [dmaStep_of_last hw hi]

/-! ## What the writes leave -/

/-- The channel once these writes are made. -/
def Dmac.writes (ws : List (Port × Byte)) (d : Dmac) : Dmac := ws.foldl (fun d w => d.write w.1 w.2) d

/-- The history of these writes. -/
def writeEvents (ws : List (Port × Byte)) : List Event := ws.map fun w => .ioWr w.1 w.2

/-- s, at the first statement of DMA_PROGRAM, once these writes are made, one each turn, with more to come. -/
def wrote (ws : List (Port × Byte)) (s : State) : State :=
  { s with
    pos := if ws = [] then s.pos else .dma, i := s.i + ws.length, dmac := s.dmac.writes ws
    events := s.events ++ writeEvents ws, schedule := s.schedule.drop ws.length }

theorem wrote_nil (s : State) : wrote [] s = s := by simp [wrote, Dmac.writes, writeEvents]

theorem wrote_concat (ws : List (Port × Byte)) (w : Port × Byte) (s : State) :
    wrote (ws ++ [w]) s = { (wrote ws s).takeTurn with
      pos := .dma, i := (wrote ws s).i + 1, dmac := (wrote ws s).dmac.write w.1 w.2
      events := (wrote ws s).events ++ [.ioWr w.1 w.2] } := by
  simp [wrote, State.takeTurn, Dmac.writes, writeEvents, Nat.add_assoc]

/-- R243, R244: the ten writes load the channel's registers, whatever they held. Each flip-flop clear makes the first
write of the pair after it the low byte. -/
theorem writes_dmaWrites (addr count : Word32) (dir : Direction) (d : Dmac) :
    d.writes (dmaWrites addr count dir) = {
      baseAddr := addr.extractLsb' 0 16, curAddr := addr.extractLsb' 0 16, page := addr.extractLsb' 16 8
      baseCount := (count - 1).extractLsb' 0 16, curCount := (count - 1).extractLsb' 0 16
      mode := dmaModeByte dir, masked := false, flipFlop := false } := by
  have hpair (x : Word32) : x.extractLsb' 8 8 ++ x.extractLsb' 0 8 = x.extractLsb' 0 16 :=
    BitVec.extractLsb'_append_extractLsb'_eq_extractLsb' rfl
  have hmode : (dmaModeByte dir).extractLsb' 0 2 = Config.dmaChannel := by cases dir <;> rfl
  simp [Dmac.writes, dmaWrites, Dmac.write, dmaMaskPort, dmaFlipFlopPort, dmaAddrPort, dmaPagePort, dmaCountPort,
    dmaModePort, dmaMaskByte, dmaUnmaskByte, pairWrite_pair, hpair, hmode, dmaProgrammedCount, Config.dmaChannel]

/-! ## Runs -/

theorem blockTurns_succ_iff {n : Nat} {turns : List Turn} :
    BlockTurns (n + 1) turns ↔ BlockTurns n turns ∧ (turns.drop n).headD .block = .block := by
  induction n generalizing turns with
  | zero => simp [BlockTurns]
  | succ n ih =>
    have hdrop : turns.tail.drop n = turns.drop (n + 1) := by rw [← List.drop_one, List.drop_drop, Nat.add_comm]
    rw [BlockTurns, ih, hdrop, BlockTurns, and_assoc]

/-- The operation in progress is the request q, an accepted DMA_PROGRAM, and SEQ is at its first statement. -/
structure BeginsProgram (q : Request) (addr count : Word32) (dir : Direction) (s : State) : Prop where
  decoded : decodeRequest q = .ok (.dmaProgram addr count dir)
  accepted : dmaCheck addr count = none
  phase : s.phase = .busy
  op : s.op = some q
  pos : s.pos = .first
  i : s.i = 0

namespace BeginsProgram

variable {q : Request} {addr count : Word32} {dir : Direction} {s : State} {n : Nat}

theorem i_wrote (hb : BeginsProgram q addr count dir s) (hn : n < 10) :
    (wrote ((dmaWrites addr count dir).take n) s).i = n := by
  have hlen : ((dmaWrites addr count dir).take n).length = n := List.length_take_of_le hn.le
  rw [wrote, hlen, hb.i, Nat.zero_add]

theorem atWrite (hb : BeginsProgram q addr count dir s) (hn : n < 10) :
    AtWrite addr count n (wrote ((dmaWrites addr count dir).take n) s) := by
  cases n with
  | zero => exact .inl ⟨hb.pos, rfl, hb.accepted⟩
  | succ n => exact .inr ⟨rfl, (hb.i_wrote hn).symm⟩

/-- The step that makes write n. -/
theorem step_eq (hb : BeginsProgram q addr count dir s) (hn : n < 10)
    (ht : (s.schedule.drop n).headD .block = .block) :
    step (wrote ((dmaWrites addr count dir).take n) s) =
      .next (dmaStep addr count dir n (wrote ((dmaWrites addr count dir).take n) s).takeTurn) := by
  have ha := hb.atWrite hn
  have hlen : ((dmaWrites addr count dir).take n).length = n := List.length_take_of_le hn.le
  have hturn : (wrote ((dmaWrites addr count dir).take n) s).turn = .block := by
    rw [State.turn, wrote, hlen, ht]
  have hsend : ∀ h, (wrote ((dmaWrites addr count dir).take n) s).pos ≠ .send h := fun h => by
    rcases ha with ⟨hpos, -⟩ | ⟨hpos, -⟩ <;> simp [hpos]
  rw [step_of_fetch hturn hb.phase (fetch_of_request hb.op hsend hb.decoded)]
  exact exec_dmaProgram_of_atWrite ha

/-- The first n writes, as long as more are to come. -/
theorem run_writes (hb : BeginsProgram q addr count dir s) (hn : n < 10) (hturns : BlockTurns n s.schedule) :
    run n s = .next (wrote ((dmaWrites addr count dir).take n) s) := by
  induction n with
  | zero => rw [List.take_zero, wrote_nil, run_zero]
  | succ n ih =>
    obtain ⟨hturns, ht⟩ := blockTurns_succ_iff.mp hturns
    obtain ⟨w, hw⟩ : ∃ w, (dmaWrites addr count dir)[n]? = some w := ⟨_, List.getElem?_eq_getElem hn.le⟩
    have hi : (wrote ((dmaWrites addr count dir).take n) s).i = n := hb.i_wrote (by omega)
    have hstep := hb.step_eq (by omega) ht
    rw [dmaStep_of_more hw hn] at hstep
    rw [run_add n 1 _ _ (ih (by omega) hturns), run_succ 0 hstep, run_zero, List.take_add_one, hw,
      Option.toList_some, wrote_concat, hi]
    rfl

/-- All ten writes, and the response in the step of the last. -/
theorem run_to_response (hb : BeginsProgram q addr count dir s) (hturns : BlockTurns 10 s.schedule) :
    run 10 s = .next { ended (writeEvents (dmaWrites addr count dir))
        ⟨.ok, #v[0, 0, 0, 0, 0, 0, 0], 0, 0, q.extractLsb' 0 8⟩ s with
      dmac := s.dmac.writes (dmaWrites addr count dir), schedule := s.schedule.drop 10 } := by
  obtain ⟨hturns, ht⟩ := blockTurns_succ_iff.mp hturns
  have hop : (wrote ((dmaWrites addr count dir).take 9) s).opcode = q.extractLsb' 0 8 := opcode_of_op _ q hb.op
  have hstep := hb.step_eq (by omega) ht
  rw [dmaStep_of_last (p := dmaMaskPort) (v := dmaUnmaskByte) rfl (by omega)] at hstep
  rw [run_add 9 1 _ _ (hb.run_writes (by omega) hturns), run_succ 0 hstep, run_zero, takeTurn_opcode, hop]
  simp [ended, wrote, writeEvents, Dmac.writes, dmaWrites, State.takeTurn]

end BeginsProgram

/-- Settles O39: the ten writes and the response, and what the writes leave in the channel. -/
theorem dmaProgramWritesTheChannel : Obligations.DmaProgramWritesTheChannel := by
  rintro q addr count dir s hd ⟨hp, ho, ⟨hpos, -, -, hi, -⟩, hsched⟩ haddr h0 hcount hbound
  have hc : dmaCheck addr count = none := dmaCheck_eq_none_iff.mpr ⟨haddr, h0, hcount, hbound⟩
  have hb : BeginsProgram q addr count dir s := ⟨hd, hc, hp, ho, hpos, hi⟩
  have hdrop : s.schedule.drop 10 = s.schedule := by rw [hsched, List.drop_nil]
  rw [hb.run_to_response (hsched ▸ blockTurns_nil 10), writes_dmaWrites, hdrop]
  cases dir <;> rfl

end Sys2Proof.Machine
end

section
/-!
ErrorClassifier (O42, O43). The last row that holds is what is left when each row that holds overwrites the code found so
far, so the table read from its end (R263) and read from its start (R262) answer the same.
-/

namespace Sys2Proof.Machine

/-! ## The table and the overwriting rows (R260 to R263) -/

theorem lastMatch_concat (rows : List (Bool × Byte)) (row : Bool × Byte) :
    lastMatch (rows ++ [row]) = if row.1 then row.2 else lastMatch rows := by
  rw [lastMatch, List.reverse_concat, List.find?_cons]
  cases row.1 <;> rfl

theorem lastMatch_eq_foldl (rows : List (Bool × Byte)) :
    lastMatch rows = rows.foldl (fun code row => if row.1 then row.2 else code) 0 := by
  induction rows using List.reverseRecOn with
  | nil => rfl
  | append_singleton rows row ih => rw [lastMatch_concat, ih, List.foldl_concat]

theorem code_overwrite (holds : Bool) (kind k : ErrorKind) :
    (overwrite holds kind k).code = if holds then kind.code else k.code := apply_ite ErrorKind.code ..

/-- R103: row 1 of the table is one row for each code of IC. -/
theorem code_icKind (ic : BitVec 2) :
    (icKind ic).code = lastMatch [(ic == 0b01, 1), (ic == 0b10, 2), (ic == 0b11, 3)] := by
  decide +revert

theorem code_kindOf (st0 st1 st2 : Byte) :
    (kindOf st0 st1 st2).code = lastMatch (classifierRows st0 st1 st2) := by
  simp only [kindOf, code_overwrite, code_icKind, lastMatch_eq_foldl]
  rfl

theorem rbOf_singleton (b : Byte) : rbOf [b] = #v[b, 0, 0, 0, 0, 0, 0] := rfl

/-- Settles O42: the response is the code of `kindOf`, which is the table's. -/
theorem classifyAnswersTheLastMatchingRow : Obligations.ClassifyAnswersTheLastMatchingRow := by
  intro st0 st1 st2 s
  rw [exec, execClassify, respond_eq_ended, rbOf_singleton, code_kindOf]

/-! ## The named bits (R266) -/

theorem ErrorKind.code_toNat_le (k : ErrorKind) : k.code.toNat ≤ 13 := by
  cases k <;> decide

/-- A mask keeps each bit that it has. -/
theorem getLsbD_and_of_getLsbD {x mask : Byte} {i : Nat} (hi : mask.getLsbD i = true) :
    (x &&& mask).getLsbD i = x.getLsbD i := by
  rw [BitVec.getLsbD_and, hi, Bool.and_true]

theorem st0Ic_mask (st0 : Byte) : st0Ic (st0 &&& 0xC8) = st0Ic st0 := by
  rw [st0Ic, BitVec.extractLsb'_and]
  exact BitVec.and_allOnes

/-- Settles O43: the code is that of one of fourteen kinds, and each mask keeps the bits that the rows read. -/
theorem classifyDependsOnTheNamedBits : Obligations.ClassifyDependsOnTheNamedBits := by
  intro st0 st1 st2
  refine ⟨ErrorKind.code_toNat_le _, ?_⟩
  simp (disch := decide) only [kindOf, st0Ic_mask, st0NotReady, st1MissingAddressMark, st1NotWritable, st1NoData,
    st1Overrun, st1DataError, st1EndOfCylinder, st2MissingDataMark, st2BadCylinder, st2WrongCylinder,
    st2DataErrorInField, st2ControlMark, getLsbD_and_of_getLsbD]

end Sys2Proof.Machine
end

section
/-!
Exceptions (O8, O46, O47, O49). Of the three agents only the block's steps respond, hang or fault. In BUSY the invariant
makes the block's step that of the held request, which always has a next state and answers by its row of R284; in
FAULTED the block has no step.
-/

namespace Sys2Proof.Machine

/-! ## IRQ_SIGNAL and RESET answer nothing -/

section

variable {sts : List Status} {s t : State}

theorem irqSignal_answers (s : State) : Answers sts s (irqSignal s) :=
  .of_event (congrArg State.events (irqSignal_eq s)) (irqSignal_event_ne_resp s.irqFlag)

theorem resetBlock_answers (s : State) : Answers sts s (resetBlock s) := .of_event (resetBlock_events s) nofun

/-- Where no status can be answered, every response in the history is an earlier one. -/
theorem Answers.resp_mem_of_nil {r : Response} (h : Answers [] s t) (hr : .resp r ∈ t.events) : .resp r ∈ s.events := by
  obtain ⟨evs, hevs, hresp⟩ := h
  rw [hevs] at hr
  exact (List.mem_append.mp hr).resolve_right fun hnew => List.not_mem_nil (hresp r hnew)

end

/-! ## FAULTED (R281, R298) -/

section

variable {s t : State}

theorem step_of_faulted (ht : s.turn = .block) (hp : s.phase = .faulted) : step s = .fault .awaitingReset := by
  simp only [step, ht, blockTurn, takeTurn_phase, hp]

/-- In FAULTED only IRQ and RESET step. -/
theorem step_faulted_cases (hp : s.phase = .faulted) (h : step s = .next t) :
    (s.turn = .irq ∧ t = irqSignal s.takeTurn) ∨ (s.turn = .reset ∧ t = resetBlock s.takeTurn) := by
  rcases step_agent_cases h with hirq | hreset | ⟨-, hidle, -⟩ | ⟨-, hbusy, -⟩
  · exact .inl hirq
  · exact .inr hreset
  · simp [hp] at hidle
  · simp [hp] at hbusy

end

/-- Settles O47: a signal writes the latch and the history only, and neither it nor RESET responds. -/
theorem faultedIsLeftOnlyByReset : Obligations.FaultedIsLeftOnlyByReset := by
  intro s hp
  refine ⟨fun ht => step_of_faulted ht hp, ?_, ?_⟩
  · intro t h hchange
    rcases step_faulted_cases hp h with ⟨-, rfl⟩ | ⟨ht, -⟩
    · rw [irqSignal_eq] at hchange
      rcases hchange with hphase | hfault
      · exact absurd hp hphase
      · exact absurd rfl hfault
    · exact ht
  · intro t h r hr
    have hnone : Answers [] s.takeTurn t := by
      rcases step_faulted_cases hp h with ⟨-, rfl⟩ | ⟨-, rfl⟩
      · exact irqSignal_answers _
      · exact resetBlock_answers _
    exact hnone.resp_mem_of_nil hr

/-! ## BUSY (R284, R298) -/

/-- An illegal request word has no statement inside SEND. -/
theorem AtStatement.pos_ne_send_of_illegal {q : Request} {e : DecodeError} {s : State} (hs : AtStatement q s)
    (hd : decodeRequest q = .error e) (h : Handshake) : s.pos ≠ .send h := by
  intro hpos
  simp [AtStatement, hpos, hd] at hs

/-- Settles O46: a valid request's step is that of `exec`, which always has a next state, and an illegal word is
refused. -/
theorem busyStatesAlwaysStep : Obligations.BusyStatesAlwaysStep := by
  intro s hs hp
  cases ht : s.turn with
  | irq => exact ⟨_, step_of_irq ht⟩
  | reset => exact ⟨_, step_of_reset ht⟩
  | block =>
    obtain ⟨q, ho⟩ := Option.isSome_iff_exists.mp (hs.busy_iff_op.mp hp)
    cases hd : decodeRequest q with
    | ok i =>
      rw [everyStatementIsAStepOfTheRequest s q i hs ht ho hd]
      exact exec_next i s.takeTurn
    | error e =>
      have hfetch : fetch s.takeTurn = .illegal :=
        fetch_of_illegal ho ((hs.at_statement q ho).pos_ne_send_of_illegal hd) hd
      exact ⟨_, step_of_fetch_illegal ht hp hfetch⟩

/-- While a valid request is held every agent's step answers by the request's row of R284, IRQ's and RESET's not at
all. -/
theorem Consistent.step_answers {s t : State} {q : Request} {i : Instr} (hs : Consistent s) (ho : s.op = some q)
    (hd : decodeRequest q = .ok i) (h : step s = .next t) : Answers (possibleStatuses i) s.takeTurn t := by
  cases ht : s.turn with
  | irq =>
    obtain rfl := Host.Outcome.next.inj ((step_of_irq ht).symm.trans h)
    exact irqSignal_answers _
  | reset =>
    obtain rfl := Host.Outcome.next.inj ((step_of_reset ht).symm.trans h)
    exact resetBlock_answers _
  | block => exact exec_answers ((everyStatementIsAStepOfTheRequest s q i hs ht ho hd).symm.trans h)

/-- Settles O49: a step into FAULTED writes S.fault, by the invariant on both sides of it, and only DMA_PROGRAM writes a
reason there. -/
theorem operationsHaveOnlyTheirOutcomes : Obligations.OperationsHaveOnlyTheirOutcomes := by
  intro s t q i hs ho hd h
  refine ⟨fun r evs hevs hr => (hs.step_answers ho hd h).status_mem hevs hr, fun hfaulted => ?_⟩
  have hbusy : s.phase = .busy := hs.busy_iff_op.mpr (by simp [ho])
  have hbefore : s.fault = .none := hs.fault_eq_none (by simp [hbusy])
  have hafter : t.fault ≠ .none := (everyStepKeepsTheInvariant s t hs h).faulted_iff_fault.mp hfaulted
  rcases onlyDmaProgramAndResetWriteTheFault s t h (by rwa [hbefore]) with ⟨-, hcleared⟩ |
    ⟨-, -, q', addr, count, dir, ho', hd', -⟩
  · exact absurd hcleared hafter
  · obtain rfl : q = q' := Option.some.inj (ho.symm.trans ho')
    exact ⟨addr, count, dir, Except.ok.inj (hd.symm.trans hd')⟩

/-! ## A signal and the final check of a wait (R289) -/

/-- Settles O8: the check that follows the signal finds the latch set; the check that comes before it has spent the
budget, and leaves IRQ to set the latch in IDLE. -/
theorem signalAndFinalCheckInEitherOrder : Obligations.SignalAndFinalCheckInEitherOrder := by
  intro s q τ hp ho hd hpos hspent hf
  constructor
  · have hsignal : step { s with schedule := [.irq, .block] } =
        .next { s with irqFlag := true, schedule := [.block], events := s.events ++ [.irqLatched] } := by
      rw [irqSignalLatchesOrCoalesces _ rfl, hf]
      rfl
    have hw : Waits q τ { s with irqFlag := true, schedule := [.block], events := s.events ++ [.irqLatched] } :=
      ⟨hp, ho, hd⟩
    have hcheck := hw.step_of_signal (.inr ⟨hpos, rfl⟩) rfl rfl
    rw [run_succ 1 hsignal, run_succ 0 hcheck, run_zero]
    simp [ended, State.takeTurn, hf]
  · have hw : Waits q τ { s with schedule := [.block, .irq] } := ⟨hp, ho, hd⟩
    have hcheck := hw.step_of_budget_spent (.inr ⟨hpos, hspent.symm⟩) rfl hf
    rw [run_succ 1 hcheck, run_succ 0 (irqSignalLatchesOrCoalesces _ rfl), run_zero]
    simp [ended, State.takeTurn, hf]

end Sys2Proof.Machine
end

section
/-!
The step bounds of R334 (O33). `stepsLeft` gives every statement of an operation the fewest and the most steps still to
come. One step of the block takes at most one off the fewest and at least one off the most, which is proved of each
shared operation, and a signal changes neither; so a run is an induction over the turns.
-/

namespace Sys2Proof.Machine

/-! ## The steps still to come -/

/-- The fewest and the most steps of the block until an operation is over. -/
structure StepBounds where
  least : Nat
  most : Nat

/-- The bounds of an operation that is over. -/
def StepBounds.zero : StepBounds := ⟨0, 0⟩

/-- The bounds inside a handshake that has spent these Ticks and has `later` handshakes after it. The least is that
every FIFO access comes at once or this handshake times out. -/
def handshakesLeft (later polls : Nat) : Handshake → StepBounds
  | .poll => ⟨min (2 * later + 2) (2 * (500 - polls) + 1), 1002 * later + 2 * (500 - polls) + 2⟩
  | .tick => ⟨min (2 * later + 2) (2 * (500 - polls)), 1002 * later + 2 * (500 - polls) + 1⟩
  | .access => ⟨min (2 * later + 1) 1002, 1002 * later + 1⟩

/-- The bounds at each statement of i: at the first, those of R334. -/
def boundsAt (i : Instr) (s : State) : StepBounds :=
  match s.pos with
  | .first => ⟨minSteps i, maxSteps i⟩
  | .check => ⟨1, 2 * s.remaining.toNat + 1⟩
  | .waitTick => ⟨1, 2 * s.remaining.toNat⟩
  | .put h => handshakesLeft 0 s.polls h
  | .send h => handshakesLeft ((commandPhase i).length - s.i - 1 + resultCount i) s.polls h
  | .recv h => handshakesLeft (resultCount i - s.i - 1) s.polls h
  | .dma => ⟨1, 10 - s.i⟩

/-- The bounds of the steps that i still takes. -/
def stepsLeft (i : Instr) (s : State) : StepBounds := if s.phase = .busy then boundsAt i s else .zero

/-- A step of the block from a state with the bounds b may end in t. -/
structure LeadsTo (i : Instr) (b : StepBounds) (t : State) : Prop where
  least : b.least ≤ (stepsLeft i t).least + 1
  most : (stepsLeft i t).most < b.most

section

variable {i : Instr} {s t : State} {h : Handshake} {b b' : StepBounds}

theorem LeadsTo.of_eq (ht : stepsLeft i t = b') (hleast : b.least ≤ b'.least + 1) (hmost : b'.most < b.most) :
    LeadsTo i b t := by
  subst ht
  exact ⟨hleast, hmost⟩

theorem stepsLeft_of_over (hp : t.phase ≠ .busy) : stepsLeft i t = .zero := if_neg hp

/-- The last step. -/
theorem LeadsTo.of_over (hp : t.phase ≠ .busy) (hleast : b.least ≤ 1) (hmost : 0 < b.most) : LeadsTo i b t :=
  .of_eq (stepsLeft_of_over hp) hleast hmost

theorem stepsLeft_of_busy (hp : s.phase = .busy) : stepsLeft i s = boundsAt i s := if_pos hp

theorem stepsLeft_first (hp : s.phase = .busy) (hpos : s.pos = .first) : stepsLeft i s = ⟨minSteps i, maxSteps i⟩ := by
  rw [stepsLeft_of_busy hp, boundsAt, hpos]

theorem stepsLeft_check (hp : s.phase = .busy) (hpos : s.pos = .check) :
    stepsLeft i s = ⟨1, 2 * s.remaining.toNat + 1⟩ := by
  rw [stepsLeft_of_busy hp, boundsAt, hpos]

theorem stepsLeft_waitTick (hp : s.phase = .busy) (hpos : s.pos = .waitTick) :
    stepsLeft i s = ⟨1, 2 * s.remaining.toNat⟩ := by
  rw [stepsLeft_of_busy hp, boundsAt, hpos]

theorem stepsLeft_put (hp : s.phase = .busy) (hpos : s.pos = .put h) : stepsLeft i s = handshakesLeft 0 s.polls h := by
  rw [stepsLeft_of_busy hp, boundsAt, hpos]

theorem stepsLeft_send (hp : s.phase = .busy) (hpos : s.pos = .send h) :
    stepsLeft i s = handshakesLeft ((commandPhase i).length - s.i - 1 + resultCount i) s.polls h := by
  rw [stepsLeft_of_busy hp, boundsAt, hpos]

theorem stepsLeft_recv (hp : s.phase = .busy) (hpos : s.pos = .recv h) :
    stepsLeft i s = handshakesLeft (resultCount i - s.i - 1) s.polls h := by
  rw [stepsLeft_of_busy hp, boundsAt, hpos]

theorem stepsLeft_dma (hp : s.phase = .busy) (hpos : s.pos = .dma) : stepsLeft i s = ⟨1, 10 - s.i⟩ := by
  rw [stepsLeft_of_busy hp, boundsAt, hpos]

/-! ## The handshake, SEND and READN -/

/-- The last FIFO access may be the last step. -/
theorem access_leadsTo_over {later polls : Nat} (hp : t.phase ≠ .busy) (hl : later = 0) :
    LeadsTo i (handshakesLeft later polls .access) t := by
  subst hl
  exact .of_over hp (Nat.min_le_left ..) (Nat.succ_pos _)

/-- Any other FIFO access is followed by the next handshake. -/
theorem access_leadsTo_poll {later polls : Nat} (n : Nat) (ht : stepsLeft i t = handshakesLeft n 0 .poll)
    (hl : later = n + 1) : LeadsTo i (handshakesLeft later polls .access) t := by
  subst hl
  refine .of_eq ht ?_ ?_ <;> simp only [handshakesLeft] <;> omega

/-- A step of a handshake, at a place where the poll counter gives the bounds. -/
theorem handshake_leadsTo {want : Ready} {at_ : Handshake → Pos} {access expired : State → State} {later : Nat}
    (hpolls : PollsOk h s)
    (hat : ∀ h' t, t.phase = s.phase → t.i = s.i → t.pos = at_ h' → stepsLeft i t = handshakesLeft later t.polls h')
    (hexpired : ∀ x, (expired x).phase ≠ .busy)
    (haccess : LeadsTo i (handshakesLeft later s.polls .access) (access s)) :
    LeadsTo i (handshakesLeft later s.polls h) (handshake want at_ access expired h s) := by
  apply handshake_cases
  case ready =>
    rintro rfl -
    refine .of_eq (hat .access _ rfl rfl rfl) ?_ ?_ <;> simp only [handshakesLeft] <;> omega
  case out =>
    rintro rfl - hlast
    rw [hlast]
    exact .of_over (hexpired _) (Nat.min_le_right ..) (Nat.succ_pos _)
  case again =>
    rintro rfl - -
    refine .of_eq (hat .tick _ rfl rfl rfl) ?_ ?_ <;> simp only [handshakesLeft, ioRead8_polls] <;> omega
  case ticked =>
    rintro rfl
    have hlt : s.polls < 500 := hpolls
    refine .of_eq (hat .poll _ rfl rfl rfl) ?_ ?_ <;> simp only [handshakesLeft] <;> omega
  case accessed =>
    rintro rfl
    exact haccess

theorem putStep_leadsTo (hp : s.phase = .busy) (hpolls : PollsOk h s) (v : Byte) :
    LeadsTo i (handshakesLeft 0 s.polls h) (putStep v h s) :=
  handshake_leadsTo hpolls (fun _ _ hpt _ hpos => stepsLeft_put (hpt.trans hp) hpos) (fun _ => nofun)
    (access_leadsTo_over nofun rfl)

/-- The access is followed by SEND's next byte, by READN's first, or by nothing. -/
theorem sendAccess_leadsTo {polls : Nat} (hp : s.phase = .busy) (hi : s.i < (commandPhase i).length) :
    LeadsTo i (handshakesLeft ((commandPhase i).length - s.i - 1 + resultCount i) polls .access)
      (sendAccess (commandPhase i) (resultCount i) s) := by
  unfold sendAccess
  split
  next hmore =>
    exact access_leadsTo_poll ((commandPhase i).length - (s.i + 1) - 1 + resultCount i) (stepsLeft_send hp rfl)
      (by omega)
  next hlast =>
    split
    next hnone => exact access_leadsTo_over nofun (by omega)
    next hsome => exact access_leadsTo_poll (resultCount i - 0 - 1) (stepsLeft_recv hp rfl) (by omega)

theorem recvAccess_leadsTo {polls : Nat} (hp : s.phase = .busy) (hi : s.i < resultCount i) (sent : Nat)
    (done : Bytes7 → Status) :
    LeadsTo i (handshakesLeft (resultCount i - s.i - 1) polls .access) (recvAccess sent (resultCount i) done s) := by
  unfold recvAccess
  split
  next hmore =>
    exact access_leadsTo_poll (resultCount i - (s.i + 1) - 1) (stepsLeft_recv hp rfl) (by omega)
  next hlast => exact access_leadsTo_over nofun (by omega)

theorem sendStep_leadsTo (hp : s.phase = .busy) (hi : s.i < (commandPhase i).length) (hpolls : PollsOk h s) :
    LeadsTo i (handshakesLeft ((commandPhase i).length - s.i - 1 + resultCount i) s.polls h)
      (sendStep (commandPhase i) (resultCount i) h s) :=
  handshake_leadsTo hpolls (fun _ _ hpt hti hpos => hti ▸ stepsLeft_send (hpt.trans hp) hpos) (fun _ => nofun)
    (sendAccess_leadsTo hp hi)

theorem recvStep_leadsTo (hp : s.phase = .busy) (hi : s.i < resultCount i) (hpolls : PollsOk h s) (sent : Nat)
    (done : Bytes7 → Status) :
    LeadsTo i (handshakesLeft (resultCount i - s.i - 1) s.polls h) (recvStep sent (resultCount i) done h s) :=
  handshake_leadsTo hpolls (fun _ _ hpt hti hpos => hti ▸ stepsLeft_recv (hpt.trans hp) hpos) (fun _ => nofun)
    (recvAccess_leadsTo hp hi sent done)

/-! ## IRQ_WAIT and DMA_PROGRAM -/

/-- The check, with r Ticks left. -/
theorem irqCheck_leadsTo (hp : s.phase = .busy) (r : BitVec 16) :
    LeadsTo i ⟨1, 2 * r.toNat + 1⟩ (irqCheck { s with remaining := r }) := by
  unfold irqCheck
  split
  · exact .of_over nofun le_rfl (Nat.succ_pos _)
  · split
    · exact .of_over nofun le_rfl (Nat.succ_pos _)
    · exact .of_eq (stepsLeft_waitTick hp rfl) (Nat.le_succ 1) (Nat.lt_succ_self _)

theorem irqTick_leadsTo (hp : s.phase = .busy) (h0 : 0 < s.remaining.toNat) :
    LeadsTo i ⟨1, 2 * s.remaining.toNat⟩ (irqTick s) := by
  have hspent : 2 * (s.remaining - 1).toNat + 1 < 2 * s.remaining.toNat := by bv_omega
  exact .of_eq (stepsLeft_check hp rfl) (Nat.le_succ 1) hspent

theorem dmaStep_leadsTo {n : Nat} (hp : s.phase = .busy) (hn : n < 10) (addr count : Word32) (dir : Direction) :
    LeadsTo i ⟨1, 10 - n⟩ (dmaStep addr count dir n s) := by
  unfold dmaStep
  split
  · split
    · exact .of_eq (stepsLeft_dma hp rfl) (Nat.le_succ 1) (Nat.sub_succ_lt_self 10 n hn)
    · exact .of_over nofun le_rfl (Nat.sub_pos_of_lt hn)
  · exact .of_over nofun le_rfl (Nat.sub_pos_of_lt hn)

/-! ## The first statement -/

/-- R334 counts one handshake for each byte sent or read. -/
theorem stepBounds_of_exchange (hx : isExchange i = true) (hi : i.wellFormed = true) :
    StepBounds.mk (minSteps i) (maxSteps i) =
      handshakesLeft ((commandPhase i).length + resultCount i - 1) 0 .poll := by
  cases i with
  | seqReadResult n =>
    have hn : 1 ≤ n.toNat ∧ n.toNat ≤ 7 := by simpa [Instr.wellFormed] using hi
    simp only [minSteps, maxSteps, handshakesLeft, commandPhase, commandOf, resultCount, List.length_nil,
      StepBounds.mk.injEq]
    omega
  | irqWait | ccWriteByte | geoLbaToChs | geoChsToLba | dmaProgram | classify => cases hx
  | _ => rfl

theorem exchange_first_leadsTo (hp : s.phase = .busy) (hpos : s.pos = .first) (hx : isExchange i = true)
    (hi : i.wellFormed = true) (done : Bytes7 → Status) :
    LeadsTo i ⟨minSteps i, maxSteps i⟩ (exchange (commandPhase i) (resultCount i) done s) := by
  rw [stepBounds_of_exchange hx hi]
  apply exchange_cases
  case sending =>
    rintro h s' (⟨hsend, -⟩ | ⟨hne, rfl, rfl⟩)
    · simp [hpos] at hsend
    · have hlen : 0 < (commandPhase i).length := List.length_pos_iff.mpr hne
      rw [Nat.sub_add_comm hlen]
      exact sendStep_leadsTo (h := .poll) (s := startSend (commandPhase i) s) hp hlen (Nat.zero_le _)
  case receiving =>
    rintro h s' (⟨hrecv, -⟩ | ⟨hnil, rfl, rfl⟩)
    · simp [hpos] at hrecv
    · have hcount : 0 < resultCount i := resultCount_pos_of_commandPhase_nil hx hnil
      rw [hnil, List.length_nil, Nat.zero_add]
      exact recvStep_leadsTo (h := .poll) (s := startRecv (resultCount i) s) hp hcount (Nat.zero_le _) 0 done

/-- A failed precondition of DMA_PROGRAM ends it in its first step. -/
theorem execDmaProgram_first_leadsTo {addr count : Word32} {dir : Direction} (hp : s.phase = .busy)
    (hpos : s.pos = .first) (hexec : exec (.dmaProgram addr count dir) s = .next t) : LeadsTo i ⟨1, 10⟩ t := by
  cases hc : dmaCheck addr count with
  | none =>
    rw [exec_dmaProgram_of_atWrite (.inl ⟨hpos, rfl, hc⟩)] at hexec
    obtain ⟨⟩ := hexec
    exact dmaStep_leadsTo (n := 0) hp (by decide) addr count dir
  | some reason =>
    rw [exec_dmaProgram_of_fault hpos hc] at hexec
    obtain ⟨⟩ := hexec
    exact .of_over nofun le_rfl (by decide)

theorem exec_first_leadsTo (hi : i.wellFormed = true) (hp : s.phase = .busy) (hpos : s.pos = .first)
    (hexec : exec i s = .next t) : LeadsTo i ⟨minSteps i, maxSteps i⟩ t := by
  rcases isExchange_or i with hx | ⟨τ, rfl⟩ | ⟨v, rfl⟩ | ⟨lba, rfl⟩ | ⟨c, hd, sec, rfl⟩ | ⟨a, c, d, rfl⟩ |
    ⟨a, b, c, rfl⟩ | rfl
  · rw [exec_exchange i hx] at hexec
    obtain ⟨⟩ := hexec
    exact exchange_first_leadsTo hp hpos hx hi _
  · rw [exec_irqWait_of_atCheck (.inl ⟨hpos, rfl⟩)] at hexec
    obtain ⟨⟩ := hexec
    exact irqCheck_leadsTo hp τ
  · simp only [exec, execCcWriteByte, hpos] at hexec
    obtain ⟨⟩ := hexec
    exact putStep_leadsTo (h := .poll) (s := { s with polls := 0 }) hp (Nat.zero_le _) v
  · obtain ⟨⟩ := hexec
    exact .of_over nofun le_rfl Nat.one_pos
  · obtain ⟨⟩ := hexec
    split <;> exact .of_over nofun le_rfl Nat.one_pos
  · exact execDmaProgram_first_leadsTo hp hpos hexec
  · obtain ⟨⟩ := hexec
    exact .of_over nofun le_rfl Nat.one_pos
  · cases hi

/-! ## Every statement -/

theorem exec_leadsTo (hi : i.wellFormed = true) (hp : s.phase = .busy) (hs : AtStatementOf i s)
    (hexec : exec i s = .next t) : LeadsTo i (stepsLeft i s) t := by
  cases hpos : s.pos with
  | first =>
    rw [stepsLeft_first hp hpos]
    exact exec_first_leadsTo hi hp hpos hexec
  | check =>
    simp only [AtStatementOf, hpos] at hs
    obtain ⟨τ, rfl, -⟩ := hs
    rw [exec_irqWait_of_atCheck (.inr ⟨hpos, rfl⟩)] at hexec
    obtain ⟨⟩ := hexec
    rw [stepsLeft_check hp hpos]
    exact irqCheck_leadsTo hp s.remaining
  | waitTick =>
    simp only [AtStatementOf, hpos] at hs
    obtain ⟨τ, rfl, h0, -⟩ := hs
    rw [exec_irqWait_of_waitTick hpos] at hexec
    obtain ⟨⟩ := hexec
    rw [stepsLeft_waitTick hp hpos]
    exact irqTick_leadsTo hp h0
  | put h =>
    obtain ⟨v, rfl, hpolls⟩ := (atStatementOf_put hpos).mp hs
    rw [exec_of_put hpos] at hexec
    obtain ⟨⟩ := hexec
    rw [stepsLeft_put hp hpos]
    exact putStep_leadsTo hp hpolls v
  | send h =>
    obtain ⟨hcmd, hlt, hpolls⟩ := (atStatementOf_send hpos).mp hs
    rw [hcmd] at hlt
    rw [exec_of_send (isExchange_of_commandPhase_ne_nil (List.ne_nil_of_length_pos (by omega))) hpos] at hexec
    obtain ⟨⟩ := hexec
    rw [stepsLeft_send hp hpos]
    exact sendStep_leadsTo hp hlt hpolls
  | recv h =>
    obtain ⟨-, hlt, -, hpolls, -⟩ := (atStatementOf_recv hpos).mp hs
    rw [exec_of_recv (isExchange_of_resultCount_ne_zero (by omega)) hpos] at hexec
    obtain ⟨⟩ := hexec
    rw [stepsLeft_recv hp hpos]
    exact recvStep_leadsTo hp hlt hpolls ..
  | dma =>
    simp only [AtStatementOf, hpos] at hs
    obtain ⟨addr, count, dir, rfl, -, -, hlt⟩ := hs
    rw [exec_dmaProgram_of_atWrite (.inr ⟨hpos, rfl⟩)] at hexec
    obtain ⟨⟩ := hexec
    rw [stepsLeft_dma hp hpos]
    exact dmaStep_leadsTo hp hlt addr count dir

end

/-! ## Runs -/

/-- The request q, whose instruction is i, is in progress, with any turns to come. -/
structure Underway (q : Request) (i : Instr) (s : State) : Prop where
  decoded : decodeRequest q = .ok i
  phase : s.phase = .busy
  op : s.op = some q
  statement : AtStatementOf i s

/-- Run from s, whose next turns are these, the operation is over after some k turns and was BUSY until then, and the
block has had at least `least` of the k turns. -/
def EndsWithin (least : Nat) (turns : List Turn) (s : State) : Prop :=
  ∃ k t, k ≤ turns.length ∧ run k s = .next t ∧ t.phase ≠ .busy ∧ least ≤ (turns.take k).count .block ∧
    ∀ j, j < k → ∃ u, run j s = .next u ∧ u.phase = .busy

section

variable {q : Request} {i : Instr} {s t : State} {turns : List Turn}

theorem endsWithin_of_not_busy (hp : s.phase ≠ .busy) (turns : List Turn) : EndsWithin 0 turns s :=
  ⟨0, s, Nat.zero_le _, rfl, hp, Nat.zero_le _, nofun⟩

/-- One more turn before the others. -/
theorem EndsWithin.cons {least least' : Nat} {turn : Turn} (ht : EndsWithin least turns t) (hp : s.phase = .busy)
    (hstep : step s = .next t) (hleast : least' ≤ least + [turn].count .block) :
    EndsWithin least' (turn :: turns) s := by
  obtain ⟨k, u, hk, hrun, hover, hcount, hbusy⟩ := ht
  refine ⟨k + 1, u, Nat.succ_le_succ hk, (run_succ k hstep).trans hrun, hover, ?_, ?_⟩
  · rw [List.take_succ_cons, List.count_cons]
    rw [List.count_singleton] at hleast
    omega
  · intro j hj
    cases j with
    | zero => exact ⟨s, rfl, hp⟩
    | succ j =>
      rw [run_succ j hstep]
      exact hbusy j (Nat.lt_of_succ_lt_succ hj)

/-- On the block's turn a statement of i is carried out by exec, also while SEND has its command phase fetched. -/
theorem Underway.step_eq (hs : Underway q i s) (ht : s.turn = .block) : step s = exec i s.takeTurn := by
  obtain ⟨hrequest, hcommand⟩ := stepRunsTheFetchedInstruction
  cases hpos : s.pos with
  | send h =>
    obtain ⟨hcmd, hlt, -⟩ := (atStatementOf_send hpos).mp hs.statement
    obtain ⟨c, hc⟩ := commandOf_of_mem_commandPhase (hcmd ▸ hlt)
    rw [hcommand s q h c ht hs.phase hs.op hpos (by rw [hcmd, decodeCommand_commandPhase hc]), exec_commandOf hc]
  | _ => exact hrequest s q i ht hs.phase hs.op (by simp [hpos]) hs.decoded

/-- The block's turn takes one step off the bounds, and leaves the operation underway or over. -/
theorem Underway.block_turn (hs : Underway q i s) (ht : s.turn = .block) : ∃ t, step s = .next t ∧
    LeadsTo i (stepsLeft i s) t ∧
    (Underway q i t ∧ t.schedule = s.schedule.tail ∨ t.phase ≠ .busy) := by
  obtain ⟨t, hexec⟩ := exec_next i s.takeTurn
  have hi : i.wellFormed = true := wellFormed_of_decodeRequest hs.decoded
  have hstmt : AtStatementOf i s.takeTurn := hs.statement
  refine ⟨t, (hs.step_eq ht).trans hexec, exec_leadsTo (s := s.takeTurn) hi hs.phase hstmt hexec, ?_⟩
  have hnext : AtStatementOf i t := exec_atStatementOf hi hstmt hexec
  have hop : OperationStep q s.takeTurn t := exec_operationStep (.inr hs.decoded) hexec
  cases hop with
  | goesOn k => exact .inl ⟨⟨hs.decoded, k.phase.trans hs.phase, k.op.trans hs.op, hnext⟩, k.schedule⟩
  | _ => exact .inr nofun

/-- A signal leaves the operation where it is. -/
theorem Underway.irq_turn (hs : Underway q i s) (ht : s.turn = .irq) : ∃ t, step s = .next t ∧
    stepsLeft i t = stepsLeft i s ∧ Underway q i t ∧ t.schedule = s.schedule.tail :=
  ⟨_, irqSignalLatchesOrCoalesces s ht, rfl, ⟨hs.decoded, hs.phase, hs.op, hs.statement⟩, rfl⟩

/-- By induction on the turns: without RESET, as many turns of the block as the most steps left are enough. -/
theorem Underway.endsWithin (hs : Underway q i s) (hsched : s.schedule = turns) (hreset : ∀ x ∈ turns, x ≠ .reset)
    (hmost : (stepsLeft i s).most ≤ turns.count .block) : EndsWithin (stepsLeft i s).least turns s := by
  induction turns generalizing s with
  | nil =>
    obtain ⟨t, -, hleads, -⟩ := hs.block_turn (turn_of_schedule_nil hsched)
    exact absurd (hleads.most.trans_le hmost) (Nat.not_lt_zero _)
  | cons turn turns ih =>
    have ht : s.turn = turn := by rw [State.turn, hsched, List.headD_cons]
    have htail : s.schedule.tail = turns := by rw [hsched, List.tail_cons]
    obtain ⟨hne, hothers⟩ := List.forall_mem_cons.mp hreset
    cases turn with
    | reset => exact absurd rfl hne
    | irq =>
      obtain ⟨t, hstep, hleft, hunder, hrest⟩ := hs.irq_turn ht
      have hmore := ih hunder (hrest.trans htail) hothers (by simpa [hleft] using hmost)
      exact hmore.cons hs.phase hstep (by simp [hleft])
    | block =>
      obtain ⟨t, hstep, hleads, hcases⟩ := hs.block_turn ht
      have hmore : EndsWithin (stepsLeft i t).least turns t := by
        rcases hcases with ⟨hunder, hrest⟩ | hover
        · rw [List.count_cons_self] at hmost
          exact ih hunder (hrest.trans htail) hothers (Nat.le_of_lt_succ (hleads.most.trans_le hmost))
        · rw [stepsLeft_of_over hover]
          exact endsWithin_of_not_busy hover turns
      exact hmore.cons hs.phase hstep hleads.least

end

/-- Settles O33: at the first statement the steps left are those of R334. -/
theorem operationsEndWithinTheirStepBounds : Obligations.OperationsEndWithinTheirStepBounds := by
  rintro q i s l hd ⟨hp, ho, hcleared, -⟩ hreset hcount
  have hstart : Cleared { s with schedule := l } := hcleared
  have hunder : Underway q i { s with schedule := l } := ⟨hd, hp, ho, hstart.atStatementOf i⟩
  have hfirst : stepsLeft i { s with schedule := l } = ⟨minSteps i, maxSteps i⟩ := stepsLeft_first hp hcleared.1
  have hends := hunder.endsWithin rfl hreset (by rw [hfirst, hcount])
  rwa [hfirst] at hends

end Sys2Proof.Machine
end

section
/-!
RESET (O1, O2, O9, O41, O44). The RESET step is one equation from every state. Before it an abandoned DMA_PROGRAM has
made its first writes; the first of them masks the channel, and only the last, which is never among them, unmasks it.
-/

namespace Sys2Proof.Machine

/-! ## The power-on state (R311, R312) -/

/-- Settles O1: `State.reset` as it is written. -/
theorem powerOnStateIsWhatResetLeaves : Obligations.PowerOnStateIsWhatResetLeaves := ⟨rfl, rfl, rfl, rfl, rfl, rfl⟩

/-- Settles O44: no operation and no fault is held, and no local value. -/
theorem powerOnMeetsTheInvariant : Obligations.PowerOnMeetsTheInvariant :=
  consistent_of_no_operation nofun rfl ⟨nofun, fun h => absurd rfl h⟩ ⟨rfl, rfl, rfl, rfl, rfl, rfl⟩

/-! ## The RESET step (R310) -/

/-- Settles O2: the case of `step` that is RESET's. -/
theorem resetStepRestoresTheResetValues : Obligations.ResetStepRestoresTheResetValues := fun _ ht => step_of_reset ht

/-- Settles O9: the later of the two steps decides the latch. -/
theorem signalAndResetInEitherOrder : Obligations.SignalAndResetInEitherOrder := by
  intro s
  constructor
  · have hsignal := irqSignalLatchesOrCoalesces { s with schedule := [.irq, .reset] } rfl
    exact ⟨_, (run_succ 1 hsignal).trans (run_succ 0 (resetStepRestoresTheResetValues _ rfl)), rfl⟩
  · have hreset := resetStepRestoresTheResetValues { s with schedule := [.reset, .irq] } rfl
    exact ⟨_, (run_succ 1 hreset).trans (run_succ 0 (irqSignalLatchesOrCoalesces _ rfl)), rfl⟩

/-! ## The mask bit of an abandoned DMA_PROGRAM (R314) -/

theorem masked_write_of_ne {p : Port} (hp : p ≠ dmaMaskPort) (v : Byte) (d : Dmac) :
    (d.write p v).masked = d.masked := by
  rw [Dmac.write, if_neg hp]
  split_ifs <;> rfl

/-- Writes to other ports than the mask register's keep the mask bit. -/
theorem masked_writes_of_ne {ws : List (Port × Byte)} (hws : ∀ w ∈ ws, w.1 ≠ dmaMaskPort) (d : Dmac) :
    (d.writes ws).masked = d.masked := by
  induction ws generalizing d with
  | nil => rfl
  | cons w ws ih =>
    obtain ⟨hw, hws⟩ := List.forall_mem_cons.mp hws
    exact (ih hws _).trans (masked_write_of_ne hw w.2 d)

/-- Between the first write and the last no write is to the mask register. -/
theorem dmaWrites_middle_ne_mask (addr count : Word32) (dir : Direction) :
    ∀ w ∈ (dmaWrites addr count dir).tail.take 8, w.1 ≠ dmaMaskPort := by
  simp [dmaWrites, dmaMaskPort, dmaFlipFlopPort, dmaAddrPort, dmaPagePort, dmaCountPort, dmaModePort]

theorem masked_writes_take {addr count : Word32} {dir : Direction} {k : Nat} (h1 : 1 ≤ k) (hk : k < 10) (d : Dmac) :
    (d.writes ((dmaWrites addr count dir).take k)).masked = true := by
  obtain ⟨n, rfl⟩ := Nat.exists_eq_add_of_le' h1
  have hmask : (d.write dmaMaskPort dmaMaskByte).masked = true := rfl
  have hmiddle : ∀ w ∈ (dmaWrites addr count dir).tail.take n, w.1 ≠ dmaMaskPort := fun w hw =>
    dmaWrites_middle_ne_mask addr count dir w (List.take_subset_take_left _ (by omega) hw)
  exact (masked_writes_of_ne hmiddle _).trans hmask

/-- Settles O41: RESET finds the first k writes made, and leaves the channel as they left it. -/
theorem abandonedDmaProgramLeavesTheChannelMasked : Obligations.AbandonedDmaProgramLeavesTheChannelMasked := by
  rintro q addr count dir s k hd ⟨hp, ho, ⟨hpos, -, -, hi, -⟩, -⟩ hc h1 hk
  have hb : BeginsProgram q addr count dir { s with schedule := List.replicate k .block ++ [.reset] } :=
    ⟨hd, hc, hp, ho, hpos, hi⟩
  have hwrites := hb.run_writes hk (blockTurns_replicate_append k [.reset])
  have hlen : ((dmaWrites addr count dir).take k).length = k := List.length_take_of_le hk.le
  have hturn : (wrote ((dmaWrites addr count dir).take k)
      { s with schedule := List.replicate k .block ++ [.reset] }).turn = .reset := by
    simp [State.turn, wrote, hlen]
  have hreset := (run_add k 1 _ _ hwrites).trans (run_succ 0 (resetStepRestoresTheResetValues _ hturn))
  exact ⟨_, hreset, rfl, rfl, rfl, masked_writes_take h1 hk s.dmac⟩

end Sys2Proof.Machine
end
